-- ==== Sys2Proof/Word.lean ====
section
/-! DEFINITION. The word types of the adapter: what the spec treats as bits (R5, R60, R90). -/

namespace Sys2Proof

/-- One byte: every port register, every bus transfer and every HOSTMEM access (D9, R66). -/
abbrev Byte := BitVec 8

/-- A command word CW[63:0] (R90). -/
abbrev CommandWord := BitVec 64

/-- A host buffer address, `HOST_AW` = 16 bits (R3, R60). -/
abbrev HostAddr := BitVec 16

/-- A VDP memory address, `VRAM_AW` = 14 bits (R3, R60). -/
abbrev VramAddr := BitVec 14

/-- The number of bytes of HOSTMEM (R60). -/
def hostMemSize : Nat := 65536

/-- The number of bytes of VRAM (R60). -/
def vramSize : Nat := 16384

/-- The command opcode `OP = CW[63:56]` (R90). -/
abbrev Opcode := BitVec 8

end Sys2Proof
end

