-- ==== Sys2Proof/Syntax.lean ====
section
/-! DEFINITION. The commands of the adapter, one constructor per row of the opcode table (R94), with the operand
fields of their formats (R91) as exact bit vectors or, for one-bit choices, as named alternatives. -/

namespace Sys2Proof

/-- SEQ_VARIANT (R26): 0 = ModeFirst, 1 = ModeAfterStrobe. -/
inductive SeqVariant where
  | modeFirst
  | modeAfterStrobe
deriving DecidableEq, Repr

/-- BLANK_POL (R26): 0 = SetMeansDisplay, 1 = SetMeansBlanked. -/
inductive BlankPolarity where
  | setMeansDisplay
  | setMeansBlanked
deriving DecidableEq, Repr

/-- The direction operand RD of SET_ADDR (R151): 0 = set up for writing, 1 = set up for reading. -/
inductive Direction where
  | forWrite
  | forRead
deriving DecidableEq, Repr

/-- A command of the host (R94). Operand fields keep every value the encoding admits (R91): the values R92 calls
invalid arguments are commands too, and end as silent no-ops (R106). -/
inductive Instr where
  /-- NOP, OP 0x00 (R270). -/
  | nop
  /-- CFG_PINS, OP 0x01 (R136): pin indices, presence flags PRES, VAR, BPOL, DSH. -/
  | cfgPins (csr csw mode rst int : BitVec 4) (pres : BitVec 8) (var : SeqVariant) (bpol : BlankPolarity) (dsh : Bool)
  /-- INIT_PORTS, OP 0x02 (R137). -/
  | initPorts
  /-- INIT_DEVICE, OP 0x03 (R171): MD, FLAGS, TXT, BG. -/
  | initDevice (md : BitVec 3) (flags : BitVec 8) (txt bg : BitVec 4)
  /-- SET_MODE, OP 0x04 (R170): MD. -/
  | setMode (md : BitVec 3)
  /-- SET_BLANK, OP 0x05 (R241): B. -/
  | setBlank (b : Bool)
  /-- SET_IRQ_ENABLE, OP 0x06 (R242): B. -/
  | setIrqEnable (b : Bool)
  /-- SET_SPRITE_SIZE, OP 0x07 (R243): B. -/
  | setSpriteSize (b : Bool)
  /-- SET_SPRITE_MAG, OP 0x08 (R244): B. -/
  | setSpriteMag (b : Bool)
  /-- SET_TEXT_COLOR, OP 0x09 (R245): C. -/
  | setTextColor (c : BitVec 4)
  /-- SET_BG_COLOR, OP 0x0A (R246): C. -/
  | setBgColor (c : BitVec 4)
  /-- SET_REG_RAW, OP 0x0B (R169): IDX, VAL. -/
  | setRegRaw (idx val : BitVec 8)
  /-- SET_ADDR, OP 0x0C (R151): A, RD. -/
  | setAddr (a : VramAddr) (rd : Direction)
  /-- BULK_WRITE, OP 0x0D (R194): H, L, M. -/
  | bulkWrite (h l m : BitVec 16)
  /-- BULK_READ, OP 0x0E (R195): H, L, M. -/
  | bulkRead (h l m : BitVec 16)
  /-- READ_STATUS, OP 0x0F (R231). -/
  | readStatus
  /-- SET_TABLE_BASE, OP 0x10 (R271): A, T. -/
  | setTableBase (a : VramAddr) (t : BitVec 3)
  /-- CLEAR_FLAGS, OP 0x11 (R272). -/
  | clearFlags
deriving DecidableEq, Repr

end Sys2Proof
end

