-- ==== Sys2Proof/WellFormed.lean ====
section
/-! DEFINITION. Which operand values are legal arguments (R92, R136). The widths of the fields are exact in `Instr`, so
every command can be encoded; an ill-formed command is one whose guard fails in every state (R106). -/

namespace Sys2Proof

/-- MD is a mode code: 0..3 are legal (R92). -/
def Instr.modeLegal (md : BitVec 3) : Bool := md.toNat ≤ 3

/-- T is a table id: 0..4 are legal (R92). -/
def Instr.tableLegal (t : BitVec 3) : Bool := t.toNat ≤ 4

/-- IDX: 0..7 are legal (R92). -/
def Instr.registerLegal (idx : BitVec 8) : Bool := idx.toNat ≤ 7

/-- L and M: 1..65535 are legal (R92). -/
def Instr.countLegal (l : BitVec 16) : Bool := l.toNat ≥ 1

/-- Every port reference is present: PRES = 0xFF (R136). -/
def Instr.portsPresent (pres : BitVec 8) : Bool := pres.toNat = 0xFF

/-- A pin index is below PORT_WIDTH = 8 (R136, D9). -/
def Instr.pinInRange (i : BitVec 4) : Bool := i.toNat < 8

/-- CSR, CSW, MODE, RST are pairwise distinct (R136). -/
def Instr.pinsDistinct (csr csw mode rst : BitVec 4) : Bool :=
  csr ≠ csw && csr ≠ mode && csr ≠ rst && csw ≠ mode && csw ≠ rst && mode ≠ rst

/-- The operand values of a command are legal arguments: R92 for every format, R136 for F_CFG. -/
def Instr.WellFormed : Instr → Bool
  | .nop => true
  | .cfgPins csr csw mode rst int pres _ _ _ =>
      Instr.portsPresent pres && Instr.pinInRange csr && Instr.pinInRange csw && Instr.pinInRange mode &&
        Instr.pinInRange rst && Instr.pinInRange int && Instr.pinsDistinct csr csw mode rst
  | .initPorts => true
  | .initDevice md _ _ _ => Instr.modeLegal md
  | .setMode md => Instr.modeLegal md
  | .setBlank _ => true
  | .setIrqEnable _ => true
  | .setSpriteSize _ => true
  | .setSpriteMag _ => true
  | .setTextColor _ => true
  | .setBgColor _ => true
  | .setRegRaw idx _ => Instr.registerLegal idx
  | .setAddr _ _ => true
  | .bulkWrite _ l m => Instr.countLegal l && Instr.countLegal m
  | .bulkRead _ l m => Instr.countLegal l && Instr.countLegal m
  | .readStatus => true
  | .setTableBase _ t => Instr.tableLegal t
  | .clearFlags => true

end Sys2Proof
end

