-- ==== Sys2Proof/Decode.lean ====
section
/-! DEFINITION. Reading a command from a command word, and writing the word of a command (R90-R95). -/

namespace Sys2Proof

/-- Why a word is no command. -/
inductive DecodeError where
  /-- The opcode is in 0x12..0xFF (R95). Safe: the step sets ILL and ends as a no-op, as R95 says. -/
  | unassignedOpcode (op : Opcode)
deriving DecidableEq, Repr

/-- `v[hi:lo]` with `n = hi - lo + 1` (R5). -/
def field (w : CommandWord) (lo n : Nat) : BitVec n := w.extractLsb' lo n

/-- `v[i]` (R5). -/
def fieldBit (w : CommandWord) (i : Nat) : Bool := w.getLsbD i

/-- VAR = CW[28] (R26). -/
def SeqVariant.ofBit (b : Bool) : SeqVariant := if b then .modeAfterStrobe else .modeFirst

/-- The bit of SEQ_VARIANT (R26). -/
def SeqVariant.toBit (v : SeqVariant) : Bool := v = .modeAfterStrobe

/-- BPOL = CW[29] (R26). -/
def BlankPolarity.ofBit (b : Bool) : BlankPolarity := if b then .setMeansBlanked else .setMeansDisplay

/-- The bit of BLANK_POL (R26). -/
def BlankPolarity.toBit (v : BlankPolarity) : Bool := v = .setMeansBlanked

/-- RD = CW[16] (R151): 1 = set up for reading. -/
def Direction.ofBit (b : Bool) : Direction := if b then .forRead else .forWrite

/-- The bit of RD (R151). -/
def Direction.toBit (d : Direction) : Bool := d = .forRead

/-- The opcode of a word, `OP = CW[63:56]` (R90). -/
def opcodeOf (w : CommandWord) : Opcode := field w 56 8

/-- The decoder: the opcode map of R94 and the fields of R91. Bits a format does not list are not read (R93). -/
def decode (w : CommandWord) : Except DecodeError Instr :=
  match (opcodeOf w).toNat with
  | 0x00 => .ok .nop
  | 0x01 => .ok (.cfgPins (field w 0 4) (field w 4 4) (field w 8 4) (field w 12 4) (field w 16 4) (field w 20 8)
      (.ofBit (fieldBit w 28)) (.ofBit (fieldBit w 29)) (fieldBit w 30))
  | 0x02 => .ok .initPorts
  | 0x03 => .ok (.initDevice (field w 0 3) (field w 8 8) (field w 16 4) (field w 20 4))
  | 0x04 => .ok (.setMode (field w 0 3))
  | 0x05 => .ok (.setBlank (fieldBit w 0))
  | 0x06 => .ok (.setIrqEnable (fieldBit w 0))
  | 0x07 => .ok (.setSpriteSize (fieldBit w 0))
  | 0x08 => .ok (.setSpriteMag (fieldBit w 0))
  | 0x09 => .ok (.setTextColor (field w 0 4))
  | 0x0A => .ok (.setBgColor (field w 0 4))
  | 0x0B => .ok (.setRegRaw (field w 8 8) (field w 0 8))
  | 0x0C => .ok (.setAddr (field w 0 14) (.ofBit (fieldBit w 16)))
  | 0x0D => .ok (.bulkWrite (field w 32 16) (field w 16 16) (field w 0 16))
  | 0x0E => .ok (.bulkRead (field w 32 16) (field w 16 16) (field w 0 16))
  | 0x0F => .ok .readStatus
  | 0x10 => .ok (.setTableBase (field w 0 14) (field w 16 3))
  | 0x11 => .ok .clearFlags
  | _ => .error (.unassignedOpcode (opcodeOf w))

/-- The opcode of each command (R94). -/
def Instr.opcode : Instr → Opcode
  | .nop => 0x00
  | .cfgPins .. => 0x01
  | .initPorts => 0x02
  | .initDevice .. => 0x03
  | .setMode .. => 0x04
  | .setBlank .. => 0x05
  | .setIrqEnable .. => 0x06
  | .setSpriteSize .. => 0x07
  | .setSpriteMag .. => 0x08
  | .setTextColor .. => 0x09
  | .setBgColor .. => 0x0A
  | .setRegRaw .. => 0x0B
  | .setAddr .. => 0x0C
  | .bulkWrite .. => 0x0D
  | .bulkRead .. => 0x0E
  | .readStatus => 0x0F
  | .setTableBase .. => 0x10
  | .clearFlags => 0x11

/-- One bit as a field (R5). -/
def bit1 (b : Bool) : BitVec 1 := BitVec.ofBool b

/-- CW[47:0] of a command: the operand fields at the places of R91, every reserved bit 0 (R107). -/
def Instr.payload : Instr → BitVec 48
  | .nop => 0
  | .cfgPins csr csw mode rst int pres var bpol dsh =>
      0#17 ++ bit1 dsh ++ bit1 bpol.toBit ++ bit1 var.toBit ++ pres ++ int ++ rst ++ mode ++ csw ++ csr
  | .initPorts => 0
  | .initDevice md flags txt bg => 0#24 ++ bg ++ txt ++ flags ++ 0#5 ++ md
  | .setMode md => 0#45 ++ md
  | .setBlank b => 0#47 ++ bit1 b
  | .setIrqEnable b => 0#47 ++ bit1 b
  | .setSpriteSize b => 0#47 ++ bit1 b
  | .setSpriteMag b => 0#47 ++ bit1 b
  | .setTextColor c => 0#44 ++ c
  | .setBgColor c => 0#44 ++ c
  | .setRegRaw idx val => 0#32 ++ idx ++ val
  | .setAddr a rd => 0#31 ++ bit1 rd.toBit ++ 0#2 ++ a
  | .bulkWrite h l m => h ++ l ++ m
  | .bulkRead h l m => h ++ l ++ m
  | .readStatus => 0
  | .setTableBase a t => 0#29 ++ t ++ 0#2 ++ a
  | .clearFlags => 0

/-- The word of a command: opcode, the reserved byte CW[55:48] as 0, the operand fields (R90, R91). -/
def encode (i : Instr) : CommandWord := i.opcode ++ 0#8 ++ i.payload

/-- The bits a word's format lists, the opcode among them (R91, R94); every other bit of the word is reserved (R93). -/
def listedBits (op : Opcode) : CommandWord :=
  match op.toNat with
  | 0x01 => 0xFF0000007FFFFFFF
  | 0x03 => 0xFF00000000FFFF07
  | 0x04 => 0xFF00000000000007
  | 0x05 => 0xFF00000000000001
  | 0x06 => 0xFF00000000000001
  | 0x07 => 0xFF00000000000001
  | 0x08 => 0xFF00000000000001
  | 0x09 => 0xFF0000000000000F
  | 0x0A => 0xFF0000000000000F
  | 0x0B => 0xFF0000000000FFFF
  | 0x0C => 0xFF00000000013FFF
  | 0x0D => 0xFF00FFFFFFFFFFFF
  | 0x0E => 0xFF00FFFFFFFFFFFF
  | 0x10 => 0xFF00000000073FFF
  | _ => 0xFF00000000000000

/-- The command word whose low `nbits` bits are those of `w`, every bit above them 0. A command word is one 64-bit unit
written whole, so it has no byte order to lay out (R64, R66, R90). -/
def commandWord (nbits w : Nat) : CommandWord := BitVec.ofNat 64 (w % 2 ^ nbits)

/-- The command the decoder reads from the word whose bits are `w`, numbered as the opcode table numbers them. -/
def decodeTableWord (nbits w : Nat) : Option Instr :=
  match decode (commandWord nbits w) with
  | .ok i => some i
  | .error _ => none

end Sys2Proof
end

