-- ==== Sys2Proof/Config.lean ====
section
/-! DEFINITION. The parameters the model takes (R3), with the spec's defaults, the values the spec leaves OPEN, and the
free values of the environment. A constant declared `opaque` has no body a proof could use. -/

namespace Sys2Proof

/-- MODEBITS(m) (R3, R163): the register-1 mode bits of each mode. -/
structure ModeBits where
  graphicsI : Byte
  graphicsII : Byte
  bitmap : Byte
  text : Byte
  uninitialized : Byte
deriving DecidableEq, Repr

/-- The parameters of R3 that are not fixed constants. One record of them is held by the machine state and no step
changes it. `PORT_WIDTH`, `HOST_AW`, `VRAM_AW` are the widths of the types of Word.lean, `SCALE(t)` is fixed as given
(U28), and `SEQ_VARIANT`, `BLANK_POL`, `DSHARED` are state that CFG_PINS writes (R26). -/
structure Params where
  /-- `MODE_ASSERT_LEVEL`: the pin level of the mode line when asserted. -/
  modeAssertLevel : Bool
  /-- `RESET_ACTIVE_LOW`: the VDP reset line is asserted low. -/
  resetActiveLow : Bool
  /-- `INT_WAIT_LEVEL`: the pin level the window wait waits for (R193, C2). -/
  intWaitLevel : Bool
  /-- `WINDOW_BUDGET`: a value an instance fixes, or none where it stays OPEN (R3, U2). -/
  windowBudget : Option (BitVec 16)
  /-- `BYTE_DELAY`: a duration an instance fixes, or none where it stays OPEN (R3, U1). -/
  byteDelay : Option Nat
  /-- `R0_EXT_BIT`. -/
  r0ExtBit : Byte
  /-- `R1_MODE_MASK`. -/
  r1ModeMask : Byte
  /-- `MODEBITS`. -/
  modeBits : ModeBits
  /-- `R1_MEMSIZE_BIT`. -/
  r1MemsizeBit : Fin 8
  /-- `R1_BLANK_BIT`. -/
  r1BlankBit : Fin 8
  /-- `R1_IE_BIT`. -/
  r1IeBit : Fin 8
  /-- `R1_SIZE_BIT`. -/
  r1SizeBit : Fin 8
  /-- `R1_MAG_BIT`. -/
  r1MagBit : Fin 8
  /-- `COLOR_TEXT_SHIFT`. -/
  colorTextShift : Fin 5
  /-- `COLOR_BG_SHIFT`. -/
  colorBgShift : Fin 5
deriving DecidableEq, Repr

/-- The spec's defaults (R3, D13, D17, D28), with the two OPEN parameters left open (D30, D31). -/
def Params.default : Params where
  modeAssertLevel := true
  resetActiveLow := true
  intWaitLevel := false
  windowBudget := none
  byteDelay := none
  r0ExtBit := 0x02
  r1ModeMask := 0x18
  modeBits := { graphicsI := 0x00, graphicsII := 0x00, bitmap := 0x08, text := 0x10, uninitialized := 0x00 }
  r1MemsizeBit := 7
  r1BlankBit := 6
  r1IeBit := 5
  r1SizeBit := 1
  r1MagBit := 0
  colorTextShift := 4
  colorBgShift := 0

/-- The OPEN `WINDOW_BUDGET` less one (R3: an integer 1..65535, so the budget is this plus one); not fixed by any
source. -/
opaque Config.openBudgetPred : Fin 65535

/-- The OPEN `BYTE_DELAY` (R3: a duration at least 0); not fixed by any source. -/
opaque Config.openByteDelay : Nat

/-- The byte of the `k`-th free draw: any value (U7, U10, U11, U12). -/
opaque Config.freeByte : Nat → Byte

/-- The level of the `k`-th free draw: any value (U8, U18). -/
opaque Config.freeLevel : Nat → Bool

/-- The byte the host holds at an address that neither the host nor the adapter has written in the model: any value
(R61: an answer of the host oracle). -/
opaque Config.hostByte : Nat → Byte

/-- The budget B in force: 1..65535 where it is OPEN, the instance's value otherwise (R3, R192). -/
def Params.budget (c : Params) : BitVec 16 :=
  match c.windowBudget with
  | some b => b
  | none => BitVec.ofNat 16 (Config.openBudgetPred.val + 1)

/-- The delay in force (R3, R198). -/
def Params.delay (c : Params) : Nat :=
  match c.byteDelay with
  | some d => d
  | none => Config.openByteDelay

end Sys2Proof
end

