-- ==== Sys2Proof/Machine/State.lean ====
section
/-! DEFINITION. The state of the adapter as plain data (10_state.md), with the environment it answers to: the host's
operations still to land, the VDP's answers, the bus trace. -/

namespace Sys2Proof.Machine

/-- Why the machine stops with a fault: never. The adapter raises no exceptions and no command ends in a fault state
(R280, R284), so the type has no constructor. Safe: nothing is cut short. -/
inductive Fault where
deriving DecidableEq, Repr

/-- Why the machine refuses an instruction. -/
inductive Refusal where
  /-- An instruction that has no meaning yet, by its mnemonic; raised by an arm of exec alone. Safe: the run stops. No
  arm of this model raises it. -/
  | notModelled (mnemonic : String)
deriving DecidableEq, Repr

/-- A pin role on the control-output port (R25, R121). -/
inductive Role where
  /-- The read strobe, active-low. -/
  | csr
  /-- The write strobe, active-low. -/
  | csw
  /-- The mode line. -/
  | mode
  /-- The VDP reset line. -/
  | reset
deriving DecidableEq, Repr

/-- The five pins CFG_PINS assigns (R25). -/
inductive Pin where
  | csr
  | csw
  | mode
  | reset
  | int
deriving DecidableEq, Repr

/-- CURMODE (R34). -/
inductive Mode where
  | uninitialized
  | graphicsI
  | graphicsII
  | bitmap
  | text
deriving DecidableEq, Repr

/-- The five tables of TBASE, with the ids 0..4 of R110. -/
inductive Table where
  | name
  | colour
  | pattern
  | spriteAttribute
  | spritePattern
deriving DecidableEq, Repr

/-- TBASE[0..4] (R37). -/
structure TableBases where
  name : VramAddr
  colour : VramAddr
  pattern : VramAddr
  spriteAttribute : VramAddr
  spritePattern : VramAddr
deriving DecidableEq, Repr

/-- An event of the bus trace (R120). -/
inductive Event where
  /-- `Ctrl(v)`: SetBit, ClearBit, host control write. -/
  | ctrl (v : Byte)
  /-- `CtrlDir(v)`: INIT_PORTS, host direction write. -/
  | ctrlDir (v : Byte)
  /-- `Data(v)`: PutData. -/
  | data (v : Byte)
  /-- `DDir(v)`: SetDataDir. -/
  | ddir (v : Byte)
  /-- `IntDir(v)`: INIT_PORTS. -/
  | intDir (v : Byte)
  /-- `SampD(v)`: SampleData. -/
  | sampD (v : Byte)
  /-- `SampI(v)`: SampleInt, the level of INT_IN[IDX_INT]. -/
  | sampI (v : Bool)
  /-- `Delay(d)`: Delay. -/
  | delay (d : Nat)
  /-- `HRd(a, v)`: a byte read from HOSTMEM. -/
  | hrd (a : HostAddr) (v : Byte)
  /-- `HWr(a, v)`: a byte written to HOSTMEM. -/
  | hwr (a : HostAddr) (v : Byte)
deriving DecidableEq, Repr

/-- What RESULT takes at `finish(r)` (R38, R103): 0, the count N of a burst, or the byte of a status read. -/
inductive ResultSource where
  | zero
  | count
  | status
deriving DecidableEq, Repr

/-- One step of a command's pseudocode (R6, R7). The hidden sequencer position of R23 is the list of those still to be
run. Every step that has a bus event appends exactly one (R120). -/
inductive MicroOp where
  /-- `Assert(role)` (R123). -/
  | assertLine (role : Role)
  /-- `Deassert(role)` (R123). -/
  | deassertLine (role : Role)
  /-- `PutData(v)` (R124). -/
  | putData (v : Byte)
  /-- `PutData(v)` with v the byte the pseudocode holds (R194). -/
  | putHeld
  /-- `SAVED_DDIR <- DDIR` (R230). -/
  | saveDir
  /-- `SetDataDir(d)` with a constant (R125). -/
  | setDir (d : Byte)
  /-- `SetDataDir(SAVED_DDIR)` (R230). -/
  | restoreDir
  /-- `b <- SampleData()` (R126). -/
  | sampleData
  /-- `WAIT_INT <- 1`, the entry of `WindowWait()` (R193). -/
  | enterWait
  /-- One pass of the loop of `WindowWait()` (R193): one sample, and `WAIT_INT <- 0` if the level is reached; if it is
  not, the sequencer stays at this step. -/
  | windowWait
  /-- `Delay(BYTE_DELAY)` (R128, R198). -/
  | delay
  /-- `v <- MemRead(HOSTMEM, H + (I mod M), 1)` (R194). -/
  | hostRead (h m : BitVec 16)
  /-- `MemWrite(HOSTMEM, H + (I mod M), 1, v)` (R195). -/
  | hostWrite (h m : BitVec 16)
  /-- `P <- gate()` (R190), with the value the gate gave. -/
  | setPace (p : Bool)
  /-- `N <- ...` (R192). -/
  | setCount (n : BitVec 16)
  /-- The loop index I of a burst (R194). -/
  | setIndex (i : BitVec 16)
  /-- `IDX_<pin> <- i` (R136). -/
  | setPin (pin : Pin) (i : BitVec 4)
  /-- `SEQ_VARIANT <- v` (R136). -/
  | setVariant (v : SeqVariant)
  /-- `BLANK_POL <- v` (R136). -/
  | setBlankPol (v : BlankPolarity)
  /-- `DSHARED <- v` (R136). -/
  | setShared (v : Bool)
  /-- `CONFIGURED <- 1` (R136). -/
  | setConfigured
  /-- `CTRL_DIR <- CTRL_DIR | ROLE_MASK` (R137). -/
  | rolesOutput
  /-- `INT_DIR <- INT_DIR & ~(1 << IDX_INT)` (R137). -/
  | intInput
  /-- `PORTS_INIT <- 1` (R137). -/
  | portsReady
  /-- `TBASE[T] <- A` (R271). -/
  | setTable (t : Table) (a : VramAddr)
  /-- `R1MIR <- v` (R171, R241-R244). -/
  | setR1 (v : Byte)
  /-- `COLMIR <- v` (R171, R245, R246). -/
  | setColour (v : Byte)
  /-- `CURMODE <- m` (R167). -/
  | setMode (m : Mode)
  /-- `VDPSTAT <- b` (R39, R199, R231). -/
  | latchStatus
  /-- `PARTIAL <- (N < L)` (R194). -/
  | setPartial (l : BitVec 16)
  /-- `PACED <- P` (R194). -/
  | setPaced
  /-- `OVR <- 0` (R272). -/
  | clearOvr
  /-- `ILL <- 0` (R272). -/
  | clearIll
  /-- `ILL <- 1` (R95). -/
  | setIll
  /-- `finish(r)` (R103). -/
  | finish (r : ResultSource)
  /-- `noop()` (R104); `bulk` says that OP is BULK_WRITE or BULK_READ. -/
  | noop (bulk : Bool)
deriving DecidableEq, Repr

/-- What the environment does next, in the order in which it lands: before each step of a running command, and one at a
time while the adapter is idle. -/
inductive Input where
  /-- The host writes a word to the command port (R100). -/
  | command (w : CommandWord)
  /-- HostCtrlWrite(mask, val) (R134). -/
  | ctrlWrite (mask val : Byte)
  /-- HostCtrlDirWrite(mask, val) (R135). -/
  | ctrlDirWrite (mask val : Byte)
  /-- The host stores a byte in its own memory HOSTMEM (R61, R317). -/
  | memWrite (a : HostAddr) (v : Byte)
  /-- The host reads a byte of HOSTMEM (R61, R317). While a command runs, `old` asks for the byte without that command's
  own writes, the old one of R317; which of the two a host gets, the environment chooses (log 15). -/
  | memRead (a : HostAddr) (old : Bool)
  /-- The host reads a register of the read map (R48). -/
  | read (index : BitVec 4)
  /-- The level of the reset input ARST changes (R300): true = asserted. -/
  | arst (asserted : Bool)
  /-- The reference VDP raises its interrupt flag (R83); nothing where no reference VDP is attached. -/
  | vdpInterrupt
  /-- Nothing lands before the adapter's next step. -/
  | advance
  /-- The host waits for BUSY = 0 before it does anything more (R108 `WAIT`). -/
  | waitIdle
deriving DecidableEq, Repr

/-- A byte memory: (address, byte) pairs, addresses strictly rising, an address that is not listed holding no value the
model knows. -/
abbrev Memory := List Host.Cell

/-- The reference VDP environment (R76), used for test vectors only; the adapter's rules never read it. -/
structure RefVdp where
  /-- `VREG[0..7]`. -/
  vreg : Vector Byte 8
  /-- `VRAM[0..16383]`; an unlisted address is one whose contents are not defined (R84, R85). -/
  vram : Memory
  /-- `CURSOR`, none = unknown. -/
  cursor : Option VramAddr
  /-- `DIRN`, none = no address set up yet (R79). -/
  dirn : Option Direction
  /-- `FF`: true = the next framing byte is the second of a pair. -/
  ff : Bool
  /-- `LATCH`. -/
  latch : Byte
  /-- `INTFLAG`. -/
  intFlag : Bool
  /-- The board keeps DOUT off the data lines that feed DIN while CSR is asserted (R201, R318). -/
  isolated : Bool
deriving DecidableEq, Repr

/-- The whole machine: the adapter's registers (R20-R52), HOSTMEM, the reset input, the bus trace, and the environment's
plain data. INVENTORY.md lists every field with its rule. -/
structure State where
  /-- The parameters of R3; no step changes them. -/
  params : Params
  /-- The level of ARST (R300): true = asserted. -/
  arst : Bool
  /-- BUSY (R22). -/
  busy : Bool
  /-- CW (R23). -/
  cw : CommandWord
  /-- I (R23). -/
  i : BitVec 16
  /-- N (R23). -/
  n : BitVec 16
  /-- P (R23). -/
  p : Bool
  /-- SAVED_DDIR (R23). -/
  savedDdir : Byte
  /-- The byte the pseudocode holds between two steps (its v or b; R131, R194, R195). -/
  latch : Byte
  /-- The sequencer's position (R21, R23): the steps left of a command that stands in its window wait. -/
  todo : List MicroOp
  /-- CONFIGURED (R24). -/
  configured : Bool
  /-- IDX_CSR (R25). -/
  idxCsr : BitVec 4
  /-- IDX_CSW (R25). -/
  idxCsw : BitVec 4
  /-- IDX_MODE (R25). -/
  idxMode : BitVec 4
  /-- IDX_RESET (R25). -/
  idxReset : BitVec 4
  /-- IDX_INT (R25). -/
  idxInt : BitVec 4
  /-- SEQ_VARIANT (R26). -/
  seqVariant : SeqVariant
  /-- BLANK_POL (R26). -/
  blankPol : BlankPolarity
  /-- DSHARED (R26). -/
  dshared : Bool
  /-- PORTS_INIT (R27). -/
  portsInit : Bool
  /-- CTRL_OUT (R28). -/
  ctrlOut : Byte
  /-- CTRL_DIR (R29). -/
  ctrlDir : Byte
  /-- DOUT (R30). -/
  dout : Byte
  /-- DDIR (R31). -/
  ddir : Byte
  /-- INT_DIR (R33). -/
  intDir : Byte
  /-- CURMODE (R34). -/
  curMode : Mode
  /-- R1MIR (R35). -/
  r1mir : Byte
  /-- COLMIR (R36). -/
  colmir : Byte
  /-- TBASE[0..4] (R37). -/
  tbase : TableBases
  /-- RESULT (R38). -/
  result : BitVec 16
  /-- VDPSTAT (R39). -/
  vdpstat : Byte
  /-- OVR (R41). -/
  ovr : Bool
  /-- ILL (R42). -/
  ill : Bool
  /-- NOOP (R43). -/
  noopFlag : Bool
  /-- PARTIAL (R44). -/
  partialFlag : Bool
  /-- PACED (R45). -/
  pacedFlag : Bool
  /-- WAIT_INT (R46). -/
  waitInt : Bool
  /-- HOSTMEM (R60, R61). -/
  hostmem : Memory
  /-- HOSTMEM without the writes of the running command: the old bytes of R317 (log 15). -/
  hostmemBefore : Memory
  /-- The bus trace (R120), newest event first. -/
  trace : List Event
  /-- What the host (and the reference VDP's clock) does next. -/
  inputs : List Input
  /-- What the host has read of the read map (R48), newest first: index and value. -/
  reads : List (BitVec 4 × BitVec 32)
  /-- What the host has read of HOSTMEM (R61, R317), newest first: address and byte. -/
  memReads : List (HostAddr × Byte)
  /-- The bytes DIN carries at the next samples (R126); free values after them. -/
  dinScript : List Byte
  /-- The levels INT_IN[IDX_INT] carries at the next samples (R127); free values after them. -/
  intScript : List Bool
  /-- How many draws were made; the next free value is `Config.freeByte draws` or `Config.freeLevel draws`. -/
  draws : Nat
  /-- The reference VDP, where a run attaches one (R76). -/
  vdp : Option RefVdp
deriving DecidableEq, Repr

/-- The machine after adapter reset (R49, R300), ARST released, the parameters at the spec's defaults, nothing written
to HOSTMEM, no host operation pending, the VDP an oracle. -/
def State.reset : State where
  params := Params.default
  arst := false
  busy := false
  cw := 0
  i := 0
  n := 0
  p := false
  savedDdir := 0
  latch := 0
  todo := []
  configured := false
  idxCsr := 0
  idxCsw := 0
  idxMode := 0
  idxReset := 0
  idxInt := 0
  seqVariant := .modeFirst
  blankPol := .setMeansDisplay
  dshared := false
  portsInit := false
  ctrlOut := 0x00
  ctrlDir := 0x00
  dout := 0x00
  ddir := 0x00
  intDir := 0x00
  curMode := .uninitialized
  r1mir := 0x00
  colmir := 0x00
  tbase := { name := 0, colour := 0, pattern := 0, spriteAttribute := 0, spritePattern := 0 }
  result := 0x0000
  vdpstat := 0x00
  ovr := false
  ill := false
  noopFlag := false
  partialFlag := false
  pacedFlag := false
  waitInt := false
  hostmem := []
  hostmemBefore := []
  trace := []
  inputs := []
  reads := []
  memReads := []
  dinScript := []
  intScript := []
  draws := 0
  vdp := none

end Sys2Proof.Machine
end

