-- ==== Sys2Proof/Machine/Operands.lean ====
section
/-! DEFINITION. Operand forms and the values computed from them: mode codes, table ids, pin roles, the gate, table
scaling, register composition, host addresses. Pure functions, all unsigned (R5, R8). -/

namespace Sys2Proof.Machine

/-- One bit of a byte set to a level, every other bit kept (R121, R122). -/
def withBit (b : Byte) (k : Nat) (level : Bool) : Byte :=
  if level then b ||| (1#8 <<< k) else b &&& ~~~(1#8 <<< k)

/-- The nibble at `shift` replaced by `c`, every other bit kept (R245, R246). -/
def withNibble (b : Byte) (shift : Nat) (c : BitVec 4) : Byte :=
  (b &&& ~~~(0x0F#8 <<< shift)) ||| (c.setWidth 8 <<< shift)

/-- The mode of a mode code; codes 4..7 are no operand (R109). -/
def modeOfCode (md : BitVec 3) : Option Mode :=
  match md.toNat with
  | 0 => some .graphicsI
  | 1 => some .graphicsII
  | 2 => some .bitmap
  | 3 => some .text
  | _ => none

/-- The code of a mode in STATUS[11:9] (R34, R109). -/
def Mode.code : Mode → BitVec 3
  | .graphicsI => 0
  | .graphicsII => 1
  | .bitmap => 2
  | .text => 3
  | .uninitialized => 4

/-- The table of a table id; ids 5..7 are no table (R110). -/
def tableOfId (t : BitVec 3) : Option Table :=
  match t.toNat with
  | 0 => some .name
  | 1 => some .colour
  | 2 => some .pattern
  | 3 => some .spriteAttribute
  | 4 => some .spritePattern
  | _ => none

/-- The register of an index operand; 8..255 are no register (R92, R169). -/
def registerOfIndex (idx : BitVec 8) : Option (BitVec 3) :=
  if idx.toNat ≤ 7 then some (idx.setWidth 3) else none

/-- CFG_PINS's validity: every port reference present, every index below PORT_WIDTH = 8, the four output indices pairwise
distinct; INT may equal any of them (R136). -/
def pinsValid (csr csw mode rst int : BitVec 4) (pres : BitVec 8) : Bool :=
  pres == 0xFF && csr.toNat < 8 && csw.toNat < 8 && mode.toNat < 8 && rst.toNat < 8 && int.toNat < 8 &&
    csr != csw && csr != mode && csr != rst && csw != mode && csw != rst && mode != rst

/-- L >= 1 and M >= 1 (R92, R194). -/
def lengthsValid (l m : BitVec 16) : Bool := l != 0 && m != 0

/-- TBASE[t] (R37). -/
def TableBases.get (b : TableBases) : Table → VramAddr
  | .name => b.name
  | .colour => b.colour
  | .pattern => b.pattern
  | .spriteAttribute => b.spriteAttribute
  | .spritePattern => b.spritePattern

/-- `TBASE[t] <- a` (R271). -/
def TableBases.set (b : TableBases) (t : Table) (a : VramAddr) : TableBases :=
  match t with
  | .name => { b with name := a }
  | .colour => { b with colour := a }
  | .pattern => { b with pattern := a }
  | .spriteAttribute => { b with spriteAttribute := a }
  | .spritePattern => { b with spritePattern := a }

/-- `SCALE(t)` (R161). -/
def Table.scale : Table → Nat
  | .name => 10
  | .colour => 6
  | .pattern => 11
  | .spriteAttribute => 7
  | .spritePattern => 11

/-- `scaled(t) = TBASE[t] >> SCALE(t)`, 14 bits in, 8 bits out (R8, R161). -/
def scaled (b : TableBases) (t : Table) : Byte := (b.get t >>> t.scale).setWidth 8

/-- `MODEBITS(m)` (R163). -/
def modeBitsOf (mb : ModeBits) : Mode → Byte
  | .graphicsI => mb.graphicsI
  | .graphicsII => mb.graphicsII
  | .bitmap => mb.bitmap
  | .text => mb.text
  | .uninitialized => mb.uninitialized

/-- `reg0(m)` (R162). -/
def reg0 (c : Params) (m : Mode) : Byte := if m = .graphicsII then c.r0ExtBit else 0x00

/-- `compose(m, x)` (R163). -/
def compose (c : Params) (m : Mode) (x : Byte) : Byte := (x &&& ~~~c.r1ModeMask) ||| modeBitsOf c.modeBits m

/-- The register-3 value outside Text (R4, R164). -/
def reg3 (b : TableBases) (m : Mode) : Byte :=
  if m = .graphicsII then (if b.colour = 0 then 0x7F else 0xFF) else scaled b .colour

/-- The register-4 value (R4, R165). -/
def reg4 (b : TableBases) (m : Mode) : Byte :=
  if m = .graphicsII then (if b.pattern = 0 then 0x03 else 0x07) else scaled b .pattern

/-- The colour byte of a text and a background colour (R171). -/
def colourByte (c : Params) (txt bg : BitVec 4) : Byte :=
  (txt.setWidth 8 <<< c.colorTextShift.val) ||| (bg.setWidth 8 <<< c.colorBgShift.val)

/-- `blanked(x)` (R191). -/
def blanked (c : Params) (pol : BlankPolarity) (x : Byte) : Bool :=
  match pol with
  | .setMeansDisplay => !x.getLsbD c.r1BlankBit.val
  | .setMeansBlanked => x.getLsbD c.r1BlankBit.val

/-- The blank bit SET_BLANK stores for its operand (R241). -/
def blankBitFor (pol : BlankPolarity) (b : Bool) : Bool :=
  match pol with
  | .setMeansDisplay => !b
  | .setMeansBlanked => b

/-- `gate()` (R190). -/
def gate (s : State) : Bool := s.r1mir.getLsbD s.params.r1IeBit.val && !blanked s.params s.blankPol s.r1mir

/-- The effective count `N = P ? min(L, WINDOW_BUDGET) : L` (R192). -/
def effectiveCount (c : Params) (p : Bool) (l : BitVec 16) : BitVec 16 :=
  if p then (if l ≤ c.budget then l else c.budget) else l

/-- The host address of byte I: `(H + (I mod M)) mod 2^16` (R202). -/
def hostAddress (h m i : BitVec 16) : HostAddr := h + i % m

/-- The control-output bit of a role (R25). -/
def State.roleIndex (s : State) : Role → Nat
  | .csr => s.idxCsr.toNat
  | .csw => s.idxCsw.toNat
  | .mode => s.idxMode.toNat
  | .reset => s.idxReset.toNat

/-- The pin level at which a line is asserted (R123): strobes are active-low. -/
def assertLevel (c : Params) : Role → Bool
  | .csr => false
  | .csw => false
  | .mode => c.modeAssertLevel
  | .reset => !c.resetActiveLow

/-- ROLE_MASK (R47). -/
def State.roleMask (s : State) : Byte :=
  if s.configured then
    (1#8 <<< s.idxCsr.toNat) ||| (1#8 <<< s.idxCsw.toNat) ||| (1#8 <<< s.idxMode.toNat) ||| (1#8 <<< s.idxReset.toNat)
  else 0

/-- The bits of a masked host write that reach the register: `K = mask & ~ROLE_MASK` (R134). -/
def State.hostWritable (s : State) (mask : Byte) : Byte := mask &&& ~~~s.roleMask

/-- A register after a masked write: `(r & ~K) | (val & K)` (R134, R135). -/
def maskedWrite (r k val : Byte) : Byte := (r &&& ~~~k) ||| (val &&& k)

end Sys2Proof.Machine
end

