-- ==== Sys2Proof/Machine/Flags.lean ====
section
/-! DEFINITION. The status flags: the guards that read them, the STATUS and PINCFG views, the host read map, and how a
command's end writes RESULT and the flags (R38-R48, R103-R105). -/

namespace Sys2Proof.Machine

/-- `G_cfg` (R105). -/
def gCfg (s : State) : Bool := s.configured

/-- `G_ready` (R105). -/
def gReady (s : State) : Bool := s.configured && s.portsInit

/-- STATUS (R40). -/
def State.status (s : State) : BitVec 16 :=
  0#4 ++ s.curMode.code ++ bit1 s.pacedFlag ++ bit1 s.noopFlag ++ bit1 s.ill ++ bit1 s.ovr ++ bit1 s.partialFlag ++
    bit1 s.waitInt ++ bit1 s.portsInit ++ bit1 s.configured ++ bit1 s.busy

/-- PINCFG, index 0xA of the read map (R48). -/
def State.pincfg (s : State) : BitVec 32 :=
  bit1 s.configured ++ bit1 s.dshared ++ bit1 s.blankPol.toBit ++ bit1 s.seqVariant.toBit ++ 0#8 ++ s.idxInt ++
    s.idxReset ++ s.idxMode ++ s.idxCsw ++ s.idxCsr

/-- The host read map: the register at an index, zero-extended to 32 bits; a read has no side effect (R48). -/
def hostRead (s : State) (index : BitVec 4) : BitVec 32 :=
  match index.toNat with
  | 0x0 => s.status.setWidth 32
  | 0x1 => s.result.setWidth 32
  | 0x2 => s.vdpstat.setWidth 32
  | 0x3 => s.r1mir.setWidth 32
  | 0x4 => s.colmir.setWidth 32
  | 0x5 => s.tbase.name.setWidth 32
  | 0x6 => s.tbase.colour.setWidth 32
  | 0x7 => s.tbase.pattern.setWidth 32
  | 0x8 => s.tbase.spriteAttribute.setWidth 32
  | 0x9 => s.tbase.spritePattern.setWidth 32
  | 0xA => s.pincfg
  | 0xB => s.ctrlOut.setWidth 32
  | 0xC => s.ctrlDir.setWidth 32
  | 0xD => s.dout.setWidth 32
  | 0xE => s.ddir.setWidth 32
  | _ => s.intDir.setWidth 32

/-- The value `finish(r)` gives RESULT (R38): N of the burst, the status byte zero-extended, or 0. -/
def resultValue (s : State) : ResultSource → BitVec 16
  | .zero => 0
  | .count => s.n
  | .status => s.latch.setWidth 16

/-- `finish(r)`: RESULT, NOOP <- 0, BUSY <- 0, as one step (R103). -/
def finish (r : ResultSource) (s : State) : State :=
  { s with result := resultValue s r, noopFlag := false, busy := false }

/-- `noop()`: RESULT <- 0, NOOP <- 1, for a bulk command PARTIAL <- 0 and PACED <- 0, BUSY <- 0 (R104). -/
def noop (bulk : Bool) (s : State) : State :=
  { s with
    result := 0
    noopFlag := true
    partialFlag := if bulk then false else s.partialFlag
    pacedFlag := if bulk then false else s.pacedFlag
    busy := false }

end Sys2Proof.Machine
end

