-- ==== Sys2Proof/Machine/Frames.lean ====
section
/-! DEFINITION. What the VDP sees of the bus trace: the frame derivation (R132), and trace equivalence (R133). -/

namespace Sys2Proof.Machine

/-- Which way the byte of a frame moves (R132). -/
inductive FrameKind where
  | write
  | read
deriving DecidableEq, Repr

/-- A frame: its kind, whether the mode line is asserted (a framing byte), its byte (R132). -/
structure Frame where
  kind : FrameKind
  framing : Bool
  byte : Byte
deriving DecidableEq, Repr

/-- What a walk along a trace tracks: the pins CFG_PINS chose and the port registers (R132). -/
structure Walk where
  configured : Bool
  idxCsr : BitVec 4
  idxCsw : BitVec 4
  idxMode : BitVec 4
  modeAssertLevel : Bool
  ctrl : Byte
  dir : Byte
  dout : Byte
deriving DecidableEq, Repr

/-- Where a walk stands in a state. -/
def State.walk (s : State) : Walk where
  configured := s.configured
  idxCsr := s.idxCsr
  idxCsw := s.idxCsw
  idxMode := s.idxMode
  modeAssertLevel := s.params.modeAssertLevel
  ctrl := s.ctrlOut
  dir := s.ctrlDir
  dout := s.dout

/-- A pin of the control port has its role and is driven: CFG_PINS has given it (R25, R47) and its direction bit is output.
An undriven pin has no level of the adapter's to change (R302, V-L2-BS-5), and before CFG_PINS no pin is a strobe (R325);
DEDUCED, log 10. -/
def Walk.drives (w : Walk) (idx : BitVec 4) : Bool := w.configured && w.dir.getLsbD idx.toNat

/-- "Mode asserted" at a value of CTRL_OUT (R132). -/
def Walk.modeAsserted (w : Walk) (ctrl : Byte) : Bool := ctrl.getLsbD w.idxMode.toNat == w.modeAssertLevel

/-- A `Ctrl(v)` event is the rising edge of the write strobe: it takes the driven strobe from its asserted level to its
deasserted one, whoever had asserted it (R132). -/
def Walk.writeEdge (w : Walk) (v : Byte) : Bool :=
  w.drives w.idxCsw && !w.ctrl.getLsbD w.idxCsw.toNat && v.getLsbD w.idxCsw.toNat

/-- A sample of DIN now is a read frame: the read strobe is at its asserted level (R132). -/
def Walk.readStrobed (w : Walk) : Bool := !w.ctrl.getLsbD w.idxCsr.toNat

/-- The frame an event is, if it is one (R132). -/
def Walk.frameAt (w : Walk) : Event → Option Frame
  | .ctrl v => if w.writeEdge v then some { kind := .write, framing := w.modeAsserted v, byte := w.dout } else none
  | .sampD b => if w.readStrobed then some { kind := .read, framing := w.modeAsserted w.ctrl, byte := b } else none
  | _ => none

/-- The walk after an event (R132). -/
def Walk.after (w : Walk) : Event → Walk
  | .ctrl v => { w with ctrl := v }
  | .ctrlDir v => { w with dir := v }
  | .data v => { w with dout := v }
  | _ => w

/-- Where a walk stands after a piece of trace. -/
def walkAfter (w : Walk) (es : List Event) : Walk := es.foldl Walk.after w

/-- The frames of a piece of trace, oldest event first: what the VDP sees (R132). -/
def framesFrom : Walk → List Event → List Frame
  | _, [] => []
  | w, e :: es =>
    match w.frameAt e with
    | some f => f :: framesFrom (w.after e) es
    | none => framesFrom (w.after e) es

/-- A write pulse the adapter has begun is under way after an event: the event asserts the write strobe, or one that was
under way has not ended (R66, R130). The walk's pins have their roles, so no event of the host's moves the strobe (R134). -/
def Walk.pulsing (w : Walk) (begun : Bool) : Event → Bool
  | .ctrl v => !v.getLsbD w.idxCsw.toNat && (begun || w.ctrl.getLsbD w.idxCsw.toNat)
  | _ => begun

/-- The frames of a piece of trace that the adapter emits: each is one byte moved by one strobe pulse of its own (section 3
of 30_encoding.md, R111). A write frame that only ends a pulse the host had begun before CFG_PINS is seen by the VDP
(R132) and is none of these; `begun` says whether a pulse of the adapter's is under way. -/
def emittedFrom : Walk → Bool → List Event → List Frame
  | _, _, [] => []
  | w, begun, e :: es =>
    match w.frameAt e with
    | some f =>
      if f.kind = .read ∨ begun = true then f :: emittedFrom (w.after e) (w.pulsing begun e) es
      else emittedFrom (w.after e) (w.pulsing begun e) es
    | none => emittedFrom (w.after e) (w.pulsing begun e) es

/-- The five port registers that events write (R133). -/
structure PortRegs where
  ctrlOut : Byte
  ctrlDir : Byte
  dout : Byte
  ddir : Byte
  intDir : Byte
deriving DecidableEq, Repr

/-- The port registers of a state. -/
def State.ports (s : State) : PortRegs where
  ctrlOut := s.ctrlOut
  ctrlDir := s.ctrlDir
  dout := s.dout
  ddir := s.ddir
  intDir := s.intDir

/-- The port registers after an event (R120). -/
def PortRegs.after (r : PortRegs) : Event → PortRegs
  | .ctrl v => { r with ctrlOut := v }
  | .ctrlDir v => { r with ctrlDir := v }
  | .data v => { r with dout := v }
  | .ddir v => { r with ddir := v }
  | .intDir v => { r with intDir := v }
  | _ => r

/-- An event that writes a register without changing it (R133); `Delay`, `SampD`, `SampI`, `HRd` and `HWr` never are. -/
def PortRegs.idleEvent (r : PortRegs) : Event → Bool
  | .ctrl v => v == r.ctrlOut
  | .ctrlDir v => v == r.ctrlDir
  | .data v => v == r.dout
  | .ddir v => v == r.ddir
  | .intDir v => v == r.intDir
  | _ => false

/-- A trace without the events that leave their register unchanged (R133). -/
def reduceTrace : PortRegs → List Event → List Event
  | _, [] => []
  | r, e :: es => if r.idleEvent e then reduceTrace r es else e :: reduceTrace (r.after e) es

/-- Trace equivalence (R133). -/
def traceEquivalent (r : PortRegs) (a b : List Event) : Bool := reduceTrace r a == reduceTrace r b

end Sys2Proof.Machine
end

