-- ==== Sys2Proof/Machine/Memory.lean ====
section
/-! DEFINITION. Byte memories: reading, writing and the canonical form. -/

namespace Sys2Proof.Machine

/-- The byte listed at an address, or none: an address that is not listed holds no value the model knows. This is the one
definition of what an unlisted address reads as (log 7). -/
def Memory.read? : Memory → Nat → Option Byte
  | [], _ => none
  | (b, v) :: m, a => if a = b then some v else Memory.read? m a

/-- Storing a byte, keeping the addresses strictly rising. -/
def Memory.write : Memory → Nat → Byte → Memory
  | [], a, v => [(a, v)]
  | (b, u) :: m, a, v =>
    if a < b then (a, v) :: (b, u) :: m
    else if a = b then (a, v) :: m
    else (b, u) :: Memory.write m a v

/-- The addresses of a memory all lie in `lo, …, size - 1` and rise strictly. -/
def Memory.wfFrom (size : Nat) : Nat → Memory → Bool
  | _, [] => true
  | lo, (a, _) :: m => lo ≤ a && a < size && Memory.wfFrom size (a + 1) m

/-- The canonical form of a memory of `size` bytes: addresses strictly rising, all inside the memory. What an unlisted
address reads as is no byte, so no entry can equal it, and equal memories are equal lists. -/
def Memory.wf (size : Nat) (m : Memory) : Bool := Memory.wfFrom size 0 m

/-- `MemRead(HOSTMEM, a, 1)`'s byte (R61): the byte listed, or else the host oracle's answer for that address. -/
def Memory.hostRead (m : Memory) (a : HostAddr) : Byte :=
  match m.read? a.toNat with
  | some v => v
  | none => Config.hostByte a.toNat

/-- `MemWrite(HOSTMEM, a, 1, v)`'s effect on HOSTMEM (R61). -/
def Memory.hostWrite (m : Memory) (a : HostAddr) (v : Byte) : Memory := m.write a.toNat v

end Sys2Proof.Machine
end

