-- ==== Sys2Proof/Machine/ReferenceVdp.lean ====
section
/-! DEFINITION. The reference VDP environment (R76-R86): not a requirement on the adapter, one instance of its oracle.
Where the reference model gives no result, the answer is none and what it stored is forgotten (R84, U12). -/

namespace Sys2Proof.Machine

/-- A data frame with CURSOR unknown or against DIRN: no VRAM contents are defined after it, nor where the cursor is
(R84). -/
def RefVdp.undefinedAccess (v : RefVdp) : RefVdp := { v with vram := [], cursor := none }

/-- The VDP takes a write frame (R77-R80, R84). -/
def RefVdp.writeFrame (v : RefVdp) (framing : Bool) (byte : Byte) : RefVdp :=
  if framing then
    if v.ff then
      if byte.getLsbD 7 then
        { v with ff := false, vreg := v.vreg.set (byte.extractLsb' 0 3).toNat v.latch (byte.extractLsb' 0 3).isLt }
      else
        { v with
          ff := false
          cursor := some (byte.extractLsb' 0 6 ++ v.latch)
          dirn := some (if byte.getLsbD 6 then .forWrite else .forRead) }
    else { v with latch := byte, ff := true }
  else
    match v.cursor, v.dirn with
    | some c, some .forWrite => { v with vram := v.vram.write c.toNat byte, cursor := some (c + 1) }
    | _, _ => v.undefinedAccess

/-- The VDP takes a read frame (R81, R82, R84). -/
def RefVdp.readFrame (v : RefVdp) (framing : Bool) : RefVdp :=
  if framing then { v with ff := false, intFlag := false, cursor := none }
  else
    match v.cursor, v.dirn with
    | some c, some .forRead => { v with cursor := some (c + 1) }
    | _, _ => v.undefinedAccess

/-- The byte the VDP answers to a read frame, none where it is any value: a status byte is an oracle draw (R82), an
undefined access and a byte of undefined contents have no defined answer (R84, R85). DESIGN CHOICE (log 6): a VRAM byte of
undefined contents is drawn anew at each read and is not stored, so two reads of it may differ; the spec does not say
whether it keeps one value. -/
def RefVdp.answer (v : RefVdp) (framing : Bool) : Option Byte :=
  if framing then none
  else
    match v.cursor, v.dirn with
    | some c, some .forRead => v.vram.read? c.toNat
    | _, _ => none

/-- The level of the INT pin: 0 when INTFLAG = 1 and VREG[1][R1_IE_BIT] = 1, and 1 otherwise (R83). -/
def RefVdp.intLevel (v : RefVdp) (c : Params) : Bool := !(v.intFlag && (v.vreg[1]).getLsbD c.r1IeBit.val)

/-- The reference VDP after the machine appends an event: it takes the frame the event is, if any (R132). -/
def vdpAfter (w : Walk) (e : Event) (v : Option RefVdp) : Option RefVdp :=
  match v, w.frameAt e with
  | some u, some f =>
    match f.kind with
    | .write => some (u.writeFrame f.framing f.byte)
    | .read => some (u.readFrame f.framing)
  | v, _ => v

/-- The reference VDP at adapter reset (R85, U17): its registers, VRAM, cursor, framing phase, latch and interrupt flag are
any values. R85 does not name the direction DIRN of R79: that it is none, no address set up yet, is the model's choice
(DESIGN CHOICE, log 8), and no frame can show it, because the cursor is unknown until a framing pair sets both. `k`
numbers the free values drawn, nine bytes and two levels. What the VDP makes of a strobe pulse that reset cuts short, or
of a pin it releases, is covered by them (R301, R302, U16, U18). -/
def RefVdp.afterReset (k : Nat) (v : RefVdp) : RefVdp :=
  { v with
    vreg := Vector.ofFn fun i : Fin 8 => Config.freeByte (k + i.val)
    vram := []
    cursor := none
    dirn := none
    ff := Config.freeLevel k
    latch := Config.freeByte (k + 8)
    intFlag := Config.freeLevel (k + 1) }

end Sys2Proof.Machine
end

