-- ==== Sys2Proof/Machine/Ops.lean ====
section
/-! DEFINITION. The named operations: the bus primitives (R121-R129), host and reset operations (R100, R134, R135, R300),
the steps of a command's pseudocode, and running a command (R7, R101-R104). The adapter has no exception to take and none
to return from (R280, R284); what ends a command is `finish`, `noop` and adapter reset. -/

namespace Sys2Proof.Machine

/-! ## Bus primitives -/

/-- CTRL_OUT <- v with its event `Ctrl(v)` (R120). -/
def writeCtrl (v : Byte) (s : State) : State :=
  { s with ctrlOut := v, trace := .ctrl v :: s.trace, vdp := vdpAfter s.walk (.ctrl v) s.vdp }

/-- CTRL_DIR <- v with its event `CtrlDir(v)` (R120). -/
def writeCtrlDir (v : Byte) (s : State) : State := { s with ctrlDir := v, trace := .ctrlDir v :: s.trace }

/-- INT_DIR <- v with its event `IntDir(v)` (R120). -/
def writeIntDir (v : Byte) (s : State) : State := { s with intDir := v, trace := .intDir v :: s.trace }

/-- `SetBit(role)` for true, `ClearBit(role)` for false: one bit of CTRL_OUT, every other bit kept, one event even where
nothing changes (R121, R122). -/
def driveLine (role : Role) (level : Bool) (s : State) : State :=
  writeCtrl (withBit s.ctrlOut (s.roleIndex role) level) s

/-- `Assert(role)` (R123). -/
def assertOp (role : Role) (s : State) : State := driveLine role (assertLevel s.params role) s

/-- `Deassert(role)` (R123). -/
def deassertOp (role : Role) (s : State) : State := driveLine role (!assertLevel s.params role) s

/-- `PutData(v)` (R124). -/
def putData (v : Byte) (s : State) : State := { s with dout := v, trace := .data v :: s.trace }

/-- `SetDataDir(d)` (R125). -/
def setDataDir (d : Byte) (s : State) : State := { s with ddir := d, trace := .ddir d :: s.trace }

/-- The adapter drives the lines it samples: DDIR is not input, and DIN is the same port as DOUT or the board does not
keep them apart (R86, R201, R318). -/
def contended (s : State) (v : RefVdp) : Bool := s.ddir != 0 && (s.dshared || !v.isolated)

/-- The byte the reference VDP puts on DIN now; none where the byte is any value (R82, R84, R86, R126). -/
def vdpAnswer (s : State) : Option Byte :=
  match s.vdp with
  | none => none
  | some v => if contended s v || !s.walk.readStrobed then none else v.answer (s.walk.modeAsserted s.ctrlOut)

/-- A byte that is any value (U7, U10, U11): the next byte of the run's script, and a free value once the script is used
up (log 5). -/
def anyByte (s : State) : Byte :=
  match s.dinScript with
  | b :: _ => b
  | [] => Config.freeByte s.draws

/-- The byte on DIN at this instant (R126): the VDP's answer, or any value. -/
def dinByte (s : State) : Byte := (vdpAnswer s).getD (anyByte s)

/-- The script of DIN after a sample: used only where the byte is any value. -/
def dinScriptAfter (s : State) : List Byte := if (vdpAnswer s).isSome then s.dinScript else s.dinScript.tail

/-- `b <- SampleData()` (R126), with the frame it may be (R132). -/
def sampleData (s : State) : State :=
  { s with
    latch := dinByte s
    trace := .sampD (dinByte s) :: s.trace
    vdp := vdpAfter s.walk (.sampD (dinByte s)) s.vdp
    dinScript := dinScriptAfter s
    draws := s.draws + 1 }

/-- The level of INT_IN[IDX_INT] at this instant (R127): the reference VDP's pin (R83) where one is attached, else any
level (U8): the next of the run's script, and a free value once the script is used up (log 5). -/
def intLevel (s : State) : Bool :=
  match s.vdp with
  | some v => v.intLevel s.params
  | none =>
    match s.intScript with
    | l :: _ => l
    | [] => Config.freeLevel s.draws

/-- `SampleInt()` and the loop test of `WindowWait()`: WAIT_INT <- 0 once the level is INT_WAIT_LEVEL (R127, R193). -/
def pollInt (s : State) : State :=
  { s with
    waitInt := intLevel s != s.params.intWaitLevel
    trace := .sampI (intLevel s) :: s.trace
    intScript := if s.vdp.isSome then s.intScript else s.intScript.tail
    draws := s.draws + 1 }

/-- `Delay(BYTE_DELAY)` (R128, R198): the bound is kept as an event, no time is measured. -/
def delayOp (s : State) : State := { s with trace := .delay s.params.delay :: s.trace }

/-- `v <- MemRead(HOSTMEM, a, 1)` (R61, R129). -/
def memRead (a : HostAddr) (s : State) : State :=
  { s with latch := s.hostmem.hostRead a, trace := .hrd a (s.hostmem.hostRead a) :: s.trace }

/-- `MemWrite(HOSTMEM, a, 1, v)` with v the byte held (R61, R129). -/
def memWrite (a : HostAddr) (s : State) : State :=
  { s with hostmem := s.hostmem.hostWrite a s.latch, trace := .hwr a s.latch :: s.trace }

/-! ## The steps of a command -/

/-- `IDX_<pin> <- i` (R25, R136). -/
def setPin (pin : Pin) (i : BitVec 4) (s : State) : State :=
  { s with
    idxCsr := if pin = .csr then i else s.idxCsr
    idxCsw := if pin = .csw then i else s.idxCsw
    idxMode := if pin = .mode then i else s.idxMode
    idxReset := if pin = .reset then i else s.idxReset
    idxInt := if pin = .int then i else s.idxInt }

/-- One step of a command's pseudocode (R6). -/
def perform : MicroOp → State → State
  | .assertLine role, s => assertOp role s
  | .deassertLine role, s => deassertOp role s
  | .putData v, s => putData v s
  | .putHeld, s => putData s.latch s
  | .saveDir, s => { s with savedDdir := s.ddir }
  | .setDir d, s => setDataDir d s
  | .restoreDir, s => setDataDir s.savedDdir s
  | .sampleData, s => sampleData s
  | .enterWait, s => { s with waitInt := true }
  | .windowWait, s => pollInt s
  | .delay, s => delayOp s
  | .hostRead h m, s => memRead (hostAddress h m s.i) s
  | .hostWrite h m, s => memWrite (hostAddress h m s.i) s
  | .setPace p, s => { s with p := p }
  | .setCount n, s => { s with n := n }
  | .setIndex i, s => { s with i := i }
  | .setPin pin i, s => setPin pin i s
  | .setVariant v, s => { s with seqVariant := v }
  | .setBlankPol v, s => { s with blankPol := v }
  | .setShared v, s => { s with dshared := v }
  | .setConfigured, s => { s with configured := true }
  | .rolesOutput, s => writeCtrlDir (s.ctrlDir ||| s.roleMask) s
  | .intInput, s => writeIntDir (withBit s.intDir s.idxInt.toNat false) s
  | .portsReady, s => { s with portsInit := true }
  | .setTable t a, s => { s with tbase := s.tbase.set t a }
  | .setR1 v, s => { s with r1mir := v }
  | .setColour v, s => { s with colmir := v }
  | .setMode m, s => { s with curMode := m }
  | .latchStatus, s => { s with vdpstat := s.latch }
  | .setPartial l, s => { s with partialFlag := s.n < l }
  | .setPaced, s => { s with pacedFlag := s.p }
  | .clearOvr, s => { s with ovr := false }
  | .clearIll, s => { s with ill := false }
  | .setIll, s => { s with ill := true }
  | .finish r, s => finish r s
  | .noop bulk, s => noop bulk s

/-! ## What the host and the reset input do -/

/-- HostCtrlWrite(mask, val): only the bits the adapter does not own, one event (R134). -/
def hostCtrlWrite (mask val : Byte) (s : State) : State :=
  writeCtrl (maskedWrite s.ctrlOut (s.hostWritable mask) val) s

/-- HostCtrlDirWrite(mask, val) (R135). -/
def hostCtrlDirWrite (mask val : Byte) (s : State) : State :=
  writeCtrlDir (maskedWrite s.ctrlDir (s.hostWritable mask) val) s

/-- ARST is asserted (R300, R301): every piece of the adapter's state takes its reset value, a running command is
aborted without finish or noop, a new trace begins. HOSTMEM and the environment's data are not the adapter's and
stay; a reference VDP is in any state afterwards (R85, U17; log 8). -/
def assertReset (s : State) : State :=
  { State.reset with
    params := s.params
    arst := true
    hostmem := s.hostmem
    hostmemBefore := s.hostmemBefore
    inputs := s.inputs
    reads := s.reads
    memReads := s.memReads
    dinScript := s.dinScript
    intScript := s.intScript
    draws := s.draws + 9
    vdp := s.vdp.map (RefVdp.afterReset s.draws) }

/-- ARST is released: the adapter is idle and waits for the first command (R300). -/
def releaseReset (s : State) : State := { s with arst := false }

/-- A word written to the command port that is not accepted: while ARST is asserted it is discarded (R300), while
BUSY = 1 it is discarded and sets OVR (R100). -/
def dropCommand (s : State) : State := if s.arst then s else { s with ovr := true }

/-- The host stores a byte in HOSTMEM; the adapter does not lock it (R61, R317). The byte is the host's own, no write of
the running command, so it is among the old bytes as well. -/
def hostMemWrite (a : HostAddr) (v : Byte) (s : State) : State :=
  { s with hostmem := s.hostmem.hostWrite a v, hostmemBefore := s.hostmemBefore.hostWrite a v }

/-- The byte a host read of HOSTMEM gives (R61, R317, U19): with BUSY = 0 the byte HOSTMEM holds, every access of the
adapter being done (R74); with BUSY = 1 that byte, or the old one. The two differ only where the running command has
written, which is in the buffer of a BULK_READ (log 15). -/
def hostMemByte (a : HostAddr) (old : Bool) (s : State) : Byte :=
  if s.busy && old then s.hostmemBefore.hostRead a else s.hostmem.hostRead a

/-- The host reads a byte of HOSTMEM (R61, R317); nothing else changes. -/
def hostMemRead (a : HostAddr) (old : Bool) (s : State) : State :=
  { s with memReads := (a, hostMemByte a old s) :: s.memReads }

/-- One operation of the environment lands. While ARST is asserted the adapter's registers hold their reset values, so
the host's port writes have no effect (R300). -/
def landInput : Input → State → State
  | .command _, s => dropCommand s
  | .ctrlWrite mask val, s => if s.arst then s else hostCtrlWrite mask val s
  | .ctrlDirWrite mask val, s => if s.arst then s else hostCtrlDirWrite mask val s
  | .memWrite a v, s => hostMemWrite a v s
  | .memRead a old, s => hostMemRead a old s
  | .read index, s => { s with reads := (index, hostRead s index) :: s.reads }
  | .arst true, s => assertReset s
  | .arst false, s => releaseReset s
  | .vdpInterrupt, s => { s with vdp := s.vdp.map fun v => { v with intFlag := true } }
  | .advance, s => s
  | .waitIdle, s => s

/-- What lands before the next step of a running command: operations up to the next `advance`. A host that waits for
BUSY = 0 does nothing more, and ARST ends the command. -/
def landInputs : List Input → State → State
  | [], s => { s with inputs := [] }
  | .advance :: rest, s => { s with inputs := rest }
  | .waitIdle :: rest, s => { s with inputs := .waitIdle :: rest }
  | .arst true :: rest, s => assertReset { s with inputs := rest }
  | i :: rest, s => landInputs rest (landInput i s)

/-! ## Running a command -/

/-- The sequencer: before each step what the environment does lands, then the step is performed. ARST aborts the rest
(R301). A window wait whose level has not come keeps the sequencer where it is (R7, R193). -/
def runOps : List MicroOp → State → State
  | [], s => { s with todo := [] }
  | op :: rest, s =>
    let s := landInputs s.inputs s
    if s.arst then s
    else
      let s := perform op s
      if op = .windowWait ∧ s.waitInt = true then { s with todo := op :: rest } else runOps rest s

/-- A command runs (R101): BUSY <- 1, then its steps. Every command answers a next state (R280). -/
def execute (ops : List MicroOp) (s : State) : Host.Outcome State Fault Refusal :=
  .next (runOps ops { s with busy := true })

/-- A command that is not a bulk command: its guard first (R102, R106), then its steps and `finish(r)`, or `noop()`. -/
def command (guard : Bool) (ops : List MicroOp) (r : ResultSource) (s : State) : Host.Outcome State Fault Refusal :=
  if guard then execute (ops ++ [.finish r]) s else execute [.noop false] s

/-- A bulk command (R194, R195), whose no-op also clears PARTIAL and PACED (R104). -/
def bulkCommand (guard : Bool) (ops : List MicroOp) (s : State) : Host.Outcome State Fault Refusal :=
  if guard then execute (ops ++ [.finish .count]) s else execute [.noop true] s

/-- An accepted word with an unassigned opcode: ILL <- 1, then noop() (R95). -/
def illegalCommand (s : State) : Host.Outcome State Fault Refusal := execute [.setIll, .noop false] s

/-- Command start: CW <- w, BUSY <- 1 (R101). The command has written nothing yet, so the old bytes of HOSTMEM are those
it holds (R317, log 15). -/
def acceptCommand (w : CommandWord) (s : State) : State :=
  { s with cw := w, busy := true, hostmemBefore := s.hostmem }

/-- Who moves next. -/
inductive Turn where
  /-- The sequencer goes on with the command it is in. -/
  | resume
  /-- The adapter is idle (or held in reset) and an operation of the environment has landed, or nothing has. -/
  | idle (s : State)
  /-- The host writes a command word and it is accepted (R100). -/
  | start (w : CommandWord) (s : State)
deriving DecidableEq, Repr

/-- The turn of a state: a running command goes on (R71); held in reset or idle, the next operation of the environment
lands, and a command word written while idle is accepted (R100, R300). -/
def turn (s : State) : Turn :=
  if s.busy && !s.arst then .resume
  else
    match s.inputs with
    | [] => .idle s
    | .command w :: rest =>
      if s.arst then .idle (dropCommand { s with inputs := rest }) else .start w { s with inputs := rest }
    | i :: rest => .idle (landInput i { s with inputs := rest })

/-- `s` with a command word about to be written to the command port while the adapter accepts one (R100): the word is
the host's next operation, BUSY = 0 and ARST released, so that the next step starts it. -/
def presentCommand (w : CommandWord) (s : State) : State :=
  { s with inputs := .command w :: s.inputs, busy := false, waitInt := false, todo := [], arst := false }

end Sys2Proof.Machine
end

