-- ==== Sys2Proof/Machine/BusSignaler.lean ====
section
/-! DEFINITION. The bus signaler: strobe pulses, the two-byte framing sequence, CFG_PINS and INIT_PORTS
(40_bus_signaler.md). -/

namespace Sys2Proof.Machine

/-- `WritePulse(v)` (R130). -/
def writePulse (v : Byte) : List MicroOp := [.putData v, .assertLine .csw, .deassertLine .csw]

/-- `ReadPulse()` (R131): the byte is sampled while the read strobe is asserted. -/
def readPulse : List MicroOp := [.assertLine .csr, .sampleData, .deassertLine .csr]

/-- `Frame2(b1, b2)` in the order of the sequencing variant (R138). -/
def frame2 (variant : SeqVariant) (b1 b2 : Byte) : List MicroOp :=
  match variant with
  | .modeFirst => [.assertLine .mode] ++ writePulse b1 ++ writePulse b2 ++ [.deassertLine .mode]
  | .modeAfterStrobe =>
      [.putData b1, .assertLine .csw, .assertLine .mode, .deassertLine .csw] ++ writePulse b2 ++ [.deassertLine .mode]

/-- CFG_PINS's assignments, in the order of R136. -/
def configureOps (csr csw mode rst int : BitVec 4) (var : SeqVariant) (bpol : BlankPolarity) (dsh : Bool) :
    List MicroOp :=
  [.setPin .csr csr, .setPin .csw csw, .setPin .mode mode, .setPin .reset rst, .setPin .int int, .setVariant var,
    .setBlankPol bpol, .setShared dsh, .setConfigured]

/-- CFG_PINS (R136): guard CONFIGURED = 0 and valid fields; no bus event. -/
def execCfgPins (csr csw mode rst int : BitVec 4) (pres : BitVec 8) (var : SeqVariant) (bpol : BlankPolarity) (dsh : Bool)
    (s : State) : Host.Outcome State Fault Refusal :=
  command (!s.configured && pinsValid csr csw mode rst int pres) (configureOps csr csw mode rst int var bpol dsh) .zero s

/-- INIT_PORTS's steps: idle levels first, then the roles become outputs, the interrupt line an input, the data bus
output (R137). -/
def initPortsOps : List MicroOp :=
  [.deassertLine .csw, .deassertLine .csr, .deassertLine .mode, .deassertLine .reset,
    .rolesOutput, .intInput, .setDir 0xFF, .portsReady]

/-- INIT_PORTS (R137). -/
def execInitPorts (s : State) : Host.Outcome State Fault Refusal := command (gCfg s) initPortsOps .zero s

end Sys2Proof.Machine
end

