-- ==== Sys2Proof/Machine/AddressLatch.lean ====
section
/-! DEFINITION. The address latch and SET_ADDR (41_address_latch.md). -/

namespace Sys2Proof.Machine

/-- The first address byte `a[7:0]` (R97, R150). -/
def addressLow (a : VramAddr) : Byte := a.extractLsb' 0 8

/-- The second address byte: bit 7 = 0, bit 6 = 1 for writing and 0 for reading, then `a[13:8]` (R97, R150). -/
def addressHigh (a : VramAddr) (rd : Direction) : Byte :=
  (match rd with
    | .forRead => 0x00
    | .forWrite => 0x40) ||| (a.extractLsb' 8 6).setWidth 8

/-- `AddressLatch(a, rd)` (R150). -/
def addressLatch (variant : SeqVariant) (a : VramAddr) (rd : Direction) : List MicroOp :=
  frame2 variant (addressLow a) (addressHigh a rd)

/-- SET_ADDR (R151). -/
def execSetAddr (a : VramAddr) (rd : Direction) (s : State) : Host.Outcome State Fault Refusal :=
  command (gReady s) (addressLatch s.seqVariant a rd) .zero s

end Sys2Proof.Machine
end

