-- ==== Sys2Proof/Machine/StatusReader.lean ====
section
/-! DEFINITION. The status-read sequence and READ_STATUS (44_status_reader.md). -/

namespace Sys2Proof.Machine

/-- `StatusRead()` in the order of the sequencing variant (R230); the byte it returns is the byte held. -/
def statusRead (variant : SeqVariant) : List MicroOp :=
  match variant with
  | .modeFirst =>
      [.assertLine .mode, .saveDir, .setDir 0x00] ++ readPulse ++ [.restoreDir, .deassertLine .mode]
  | .modeAfterStrobe =>
      [.saveDir, .setDir 0x00, .assertLine .csr, .assertLine .mode, .sampleData, .deassertLine .csr, .restoreDir,
        .deassertLine .mode]

/-- READ_STATUS (R231): VDPSTAT <- b, finish(zext_16(b)). -/
def execReadStatus (s : State) : Host.Outcome State Fault Refusal :=
  command (gReady s) (statusRead s.seqVariant ++ [.latchStatus]) .status s

end Sys2Proof.Machine
end

