-- ==== Sys2Proof/Machine/BulkTransfer.lean ====
section
/-! DEFINITION. The bulk-transfer window controller: BULK_WRITE and BULK_READ (43_bulk_transfer.md). -/

namespace Sys2Proof.Machine

/-- One byte of a write burst: read it from HOSTMEM, then one write pulse with it (R194). -/
def writeByte (h m : BitVec 16) : List MicroOp :=
  [.hostRead h m, .putHeld, .assertLine .csw, .deassertLine .csw]

/-- One byte of a read burst: one read pulse, then store it in HOSTMEM; DDIR is not touched (R195, R201). -/
def readByte (h m : BitVec 16) : List MicroOp := readPulse ++ [.hostWrite h m]

/-- The byte loop for I = 0 .. N-1, with a delay before every byte but the first when the burst is not paced (R198). -/
def byteLoop (paced : Bool) (byte : List MicroOp) (count : Nat) : List MicroOp :=
  (List.range count).flatMap fun k =>
    .setIndex (BitVec.ofNat 16 k) :: ((if !paced && 0 < k then [.delay] else []) ++ byte)

/-- `WindowWait()`, run only for a paced burst (R193, R194). -/
def windowWait (paced : Bool) : List MicroOp := if paced then [.enterWait, .windowWait] else []

/-- What a bulk command does after its window wait: N, the byte loop, the status read after the last byte, VDPSTAT,
PARTIAL, PACED (R192, R194, R195, R199). -/
def burstOps (variant : SeqVariant) (paced : Bool) (count l : BitVec 16) (byte : List MicroOp) : List MicroOp :=
  [.setCount count] ++ byteLoop paced byte count.toNat ++ statusRead variant ++
    [.latchStatus, .setPartial l, .setPaced]

/-- The steps of a bulk command: the gate is evaluated once, at its start (R190, R194, R195). -/
def bulkOps (s : State) (l : BitVec 16) (byte : List MicroOp) : List MicroOp :=
  [.setPace (gate s)] ++ windowWait (gate s) ++
    burstOps s.seqVariant (gate s) (effectiveCount s.params (gate s) l) l byte

/-- BULK_WRITE (R194): guard G_ready and L >= 1 and M >= 1. -/
def execBulkWrite (h l m : BitVec 16) (s : State) : Host.Outcome State Fault Refusal :=
  bulkCommand (gReady s && lengthsValid l m) (bulkOps s l (writeByte h m)) s

/-- BULK_READ (R195): guard G_ready and L >= 1 and M >= 1. -/
def execBulkRead (h l m : BitVec 16) (s : State) : Host.Outcome State Fault Refusal :=
  bulkCommand (gReady s && lengthsValid l m) (bulkOps s l (readByte h m)) s

end Sys2Proof.Machine
end

