-- ==== Sys2Proof/Machine/Housekeeping.lean ====
section
/-! DEFINITION. The housekeeping commands NOP, SET_TABLE_BASE and CLEAR_FLAGS (46_housekeeping.md). -/

namespace Sys2Proof.Machine

/-- NOP (R270): finish(0) in every state. -/
def execNop (s : State) : Host.Outcome State Fault Refusal := command true [] .zero s

/-- SET_TABLE_BASE (R271): guard G_cfg and T <= 4; no bus event. -/
def execSetTableBase (a : VramAddr) (t : BitVec 3) (s : State) : Host.Outcome State Fault Refusal :=
  match tableOfId t with
  | some tbl => command (gCfg s) [.setTable tbl a] .zero s
  | none => command false [] .zero s

/-- CLEAR_FLAGS (R272). -/
def execClearFlags (s : State) : Host.Outcome State Fault Refusal := command true [.clearOvr, .clearIll] .zero s

end Sys2Proof.Machine
end

