-- ==== Sys2Proof/Machine/RegisterProgrammer.lean ====
section
/-! DEFINITION. The register programmer: ProgramRegister, ApplyMode, SET_REG_RAW, SET_MODE and INIT_DEVICE
(42_register_programmer.md). -/

namespace Sys2Proof.Machine

/-- The tag byte `0x80 | i` (R96, R160). -/
def tagByte (i : BitVec 3) : Byte := 0x80 ||| i.setWidth 8

/-- `ProgramRegister(i, v)` (R160). -/
def programRegister (variant : SeqVariant) (i : BitVec 3) (v : Byte) : List MicroOp := frame2 variant v (tagByte i)

/-- The register writes ApplyMode sends, in order: registers 3, 5 and 6 are skipped in Text (R162-R168). -/
def modeTable (c : Params) (m : Mode) (r1 colour : Byte) (b : TableBases) : List (BitVec 3 × Byte) :=
  [(0, reg0 c m), (1, compose c m r1), (2, scaled b .name)] ++
    (if m = .text then [] else [(3, reg3 b m)]) ++
    [(4, reg4 b m)] ++
    (if m = .text then [] else [(5, scaled b .spriteAttribute), (6, scaled b .spritePattern)]) ++
    [(7, colour)]

/-- `ApplyMode(m)` with the mirrors and bases it reads (R167): every register write, then `CURMODE <- m`. -/
def applyMode (c : Params) (variant : SeqVariant) (m : Mode) (r1 colour : Byte) (b : TableBases) : List MicroOp :=
  (modeTable c m r1 colour b).flatMap (fun rv => programRegister variant rv.1 rv.2) ++ [.setMode m]

/-- SET_REG_RAW (R169): guard G_ready and IDX <= 7; no mirror changes. -/
def execSetRegRaw (idx val : BitVec 8) (s : State) : Host.Outcome State Fault Refusal :=
  match registerOfIndex idx with
  | some i => command (gReady s) (programRegister s.seqVariant i val) .zero s
  | none => command false [] .zero s

/-- SET_MODE (R170): guard G_ready and MD <= 3. -/
def execSetMode (md : BitVec 3) (s : State) : Host.Outcome State Fault Refusal :=
  match modeOfCode md with
  | some m => command (gReady s) (applyMode s.params s.seqVariant m s.r1mir s.colmir s.tbase) .zero s
  | none => command false [] .zero s

/-- INIT_DEVICE's steps for a legal mode (R171): R1MIR takes the flags without the mode bits, COLMIR both colours, then
ApplyMode. -/
def initDeviceOps (s : State) (m : Mode) (flags : BitVec 8) (txt bg : BitVec 4) : List MicroOp :=
  [.setR1 (flags &&& ~~~s.params.r1ModeMask), .setColour (colourByte s.params txt bg)] ++
    applyMode s.params s.seqVariant m (flags &&& ~~~s.params.r1ModeMask) (colourByte s.params txt bg) s.tbase

/-- INIT_DEVICE (R171): guard G_ready and MD <= 3. -/
def execInitDevice (md : BitVec 3) (flags : BitVec 8) (txt bg : BitVec 4) (s : State) :
    Host.Outcome State Fault Refusal :=
  match modeOfCode md with
  | some m => command (gReady s) (initDeviceOps s m flags txt bg) .zero s
  | none => command false [] .zero s

end Sys2Proof.Machine
end

