-- ==== Sys2Proof/Machine/Setters.lean ====
section
/-! DEFINITION. The mode, colour and flag setters (45_setters.md). -/

namespace Sys2Proof.Machine

/-- `R1MIR <- v; ReprogramR1()`: the mirror, then register 1 with the composed byte (R240). -/
def r1SetterOps (s : State) (v : Byte) : List MicroOp :=
  [.setR1 v] ++ programRegister s.seqVariant 1 (compose s.params s.curMode v)

/-- `COLMIR <- v; ProgramRegister(7, COLMIR)` (R245, R246). -/
def colourSetterOps (s : State) (v : Byte) : List MicroOp := [.setColour v] ++ programRegister s.seqVariant 7 v

/-- SET_BLANK (R241): the operand means blanked whatever the polarity. -/
def execSetBlank (b : Bool) (s : State) : Host.Outcome State Fault Refusal :=
  command (gReady s) (r1SetterOps s (withBit s.r1mir s.params.r1BlankBit.val (blankBitFor s.blankPol b))) .zero s

/-- SET_IRQ_ENABLE (R242). -/
def execSetIrqEnable (b : Bool) (s : State) : Host.Outcome State Fault Refusal :=
  command (gReady s) (r1SetterOps s (withBit s.r1mir s.params.r1IeBit.val b)) .zero s

/-- SET_SPRITE_SIZE (R243). -/
def execSetSpriteSize (b : Bool) (s : State) : Host.Outcome State Fault Refusal :=
  command (gReady s) (r1SetterOps s (withBit s.r1mir s.params.r1SizeBit.val b)) .zero s

/-- SET_SPRITE_MAG (R244). -/
def execSetSpriteMag (b : Bool) (s : State) : Host.Outcome State Fault Refusal :=
  command (gReady s) (r1SetterOps s (withBit s.r1mir s.params.r1MagBit.val b)) .zero s

/-- SET_TEXT_COLOR (R245). -/
def execSetTextColor (c : BitVec 4) (s : State) : Host.Outcome State Fault Refusal :=
  command (gReady s) (colourSetterOps s (withNibble s.colmir s.params.colorTextShift.val c)) .zero s

/-- SET_BG_COLOR (R246). -/
def execSetBgColor (c : BitVec 4) (s : State) : Host.Outcome State Fault Refusal :=
  command (gReady s) (colourSetterOps s (withNibble s.colmir s.params.colorBgShift.val c)) .zero s

end Sys2Proof.Machine
end

