-- ==== Sys2Proof/Machine/Dispatch.lean ====
section
/-! DEFINITION. The meaning of every command, one arm per row of the opcode table (R94). -/

namespace Sys2Proof.Machine

def exec (i : Instr) (s : State) : Host.Outcome State Fault Refusal :=
  match i with
  | .nop => Sys2Proof.Machine.execNop s
  | .cfgPins csr csw mode rst int pres var bpol dsh => Sys2Proof.Machine.execCfgPins csr csw mode rst int pres var bpol dsh s
  | .initPorts => Sys2Proof.Machine.execInitPorts s
  | .initDevice md flags txt bg => Sys2Proof.Machine.execInitDevice md flags txt bg s
  | .setMode md => Sys2Proof.Machine.execSetMode md s
  | .setBlank b => Sys2Proof.Machine.execSetBlank b s
  | .setIrqEnable b => Sys2Proof.Machine.execSetIrqEnable b s
  | .setSpriteSize b => Sys2Proof.Machine.execSetSpriteSize b s
  | .setSpriteMag b => Sys2Proof.Machine.execSetSpriteMag b s
  | .setTextColor c => Sys2Proof.Machine.execSetTextColor c s
  | .setBgColor c => Sys2Proof.Machine.execSetBgColor c s
  | .setRegRaw idx val => Sys2Proof.Machine.execSetRegRaw idx val s
  | .setAddr a rd => Sys2Proof.Machine.execSetAddr a rd s
  | .bulkWrite h l m => Sys2Proof.Machine.execBulkWrite h l m s
  | .bulkRead h l m => Sys2Proof.Machine.execBulkRead h l m s
  | .readStatus => Sys2Proof.Machine.execReadStatus s
  | .setTableBase a t => Sys2Proof.Machine.execSetTableBase a t s
  | .clearFlags => Sys2Proof.Machine.execClearFlags s

end Sys2Proof.Machine
end

