-- ==== Sys2Proof/Machine/Step.lean ====
section
/-! DEFINITION. One step of the machine: a running command goes on, or the next operation of the environment lands, or a
command word is accepted, decoded and run (R71, R100, R101). -/

namespace Sys2Proof.Machine

/-- A command word is accepted and run: the command it decodes to, or R95's no-op for an unassigned opcode. -/
def startCommand (w : CommandWord) (s : State) : Host.Outcome State Fault Refusal :=
  match decode w with
  | .ok i => exec i (acceptCommand w s)
  | .error _ => illegalCommand (acceptCommand w s)

/-- One step. It ends at the only point at which a command can be suspended, its window wait (R7), or where the adapter
is idle again. -/
def step (s : State) : Host.Outcome State Fault Refusal :=
  match turn s with
  | .resume => .next (runOps s.todo s)
  | .idle t => .next t
  | .start w t => startCommand w t

/-- `s` with the command word whose low `nbits` bits are those of `w` presented at the command port, where the next step
takes its next instruction (R100). -/
def State.withFetchWord (s : State) (nbits w : Nat) : State := presentCommand (commandWord nbits w) s

end Sys2Proof.Machine
end

