-- ==== Sys2Proof/Machine/HostSide.lean ====
section
/-! DEFINITION. The host's side of the interface: the pseudo-instructions (R108), the boot order (R305), the continuation
of a partial transfer (R312, R313), and the written form of commands (R107). No step of the adapter uses them. -/

namespace Sys2Proof.Machine

/-- The host writes a command and waits for BUSY = 0 (R108). -/
def issue (i : Instr) : List Input := [.command (encode i), .waitIdle]

/-- `FILL a, h, l` (R108). -/
def fill (a : VramAddr) (h l : BitVec 16) : List Input := issue (.setAddr a .forWrite) ++ issue (.bulkWrite h l 1)

/-- `WRITE_AT a, h, l` (R108). -/
def writeAt (a : VramAddr) (h l : BitVec 16) : List Input := issue (.setAddr a .forWrite) ++ issue (.bulkWrite h l l)

/-- `READ_AT a, h, l` (R108). -/
def readAt (a : VramAddr) (h l : BitVec 16) : List Input := issue (.setAddr a .forRead) ++ issue (.bulkRead h l l)

/-- The boot order (R305): pins, ports, one status read, the five bases, the register table. -/
def boot (pins : Instr) (b : TableBases) (device : Instr) : List Input :=
  issue pins ++ issue .initPorts ++ issue .readStatus ++ issue (.setTableBase b.name 0) ++
    issue (.setTableBase b.colour 1) ++ issue (.setTableBase b.pattern 2) ++ issue (.setTableBase b.spriteAttribute 3) ++
    issue (.setTableBase b.spritePattern 4) ++ issue device

/-- A bulk transfer as the host asks for it: VRAM start, host buffer address, length, modulus. -/
structure Transfer where
  a : VramAddr
  h : BitVec 16
  l : BitVec 16
  m : BitVec 16
deriving DecidableEq, Repr

/-- The rest of a transfer that moved `n` bytes: the next VRAM address (R312), and the host arguments that carry the
pattern on, which exist in exactly three cases (R313). -/
def Transfer.continue? (t : Transfer) (n : BitVec 16) : Option Transfer :=
  if t.m = 1 then some { a := t.a + n.setWidth 14, h := t.h, l := t.l - n, m := 1 }
  else if t.l ≤ t.m then some { a := t.a + n.setWidth 14, h := t.h + n, l := t.l - n, m := t.m - n }
  else if n % t.m = 0 then some { a := t.a + n.setWidth 14, h := t.h, l := t.l - n, m := t.m }
  else none

/-- A number as the spec writes it in hexadecimal (R5), with at least `k` digits. -/
def hexText (k n : Nat) : String :=
  let digits := (Nat.toDigits 16 n).map Char.toUpper
  "0x" ++ String.ofList (List.replicate (k - digits.length) '0' ++ digits)

/-- The name of a mode code in the assembler (R107, R109); a code that is no mode is written as it is. -/
def modeText (md : BitVec 3) : String :=
  match modeOfCode md with
  | some .graphicsI => "GraphicsI"
  | some .graphicsII => "GraphicsII"
  | some .bitmap => "Bitmap"
  | some .text => "Text"
  | _ => Nat.repr md.toNat

/-- The name of a table id in the assembler (R107, R110); an id that is no table is written as it is. -/
def tableText (t : BitVec 3) : String :=
  match tableOfId t with
  | some .name => "name"
  | some .colour => "color"
  | some .pattern => "pattern"
  | some .spriteAttribute => "sattr"
  | some .spritePattern => "spat"
  | none => Nat.repr t.toNat

/-- A bit in the assembler (R107). -/
def bitText (b : Bool) : String := if b then "1" else "0"

/-- The direction of SET_ADDR in the assembler (R107). -/
def directionText : Direction → String
  | .forWrite => "write"
  | .forRead => "read"

/-- A command in the spec's assembler syntax (R107): the mnemonic, then its operands. -/
def assembly : Instr → String
  | .nop => "NOP"
  | .cfgPins csr csw mode rst int pres var bpol dsh =>
      "CFG_PINS csr=" ++ Nat.repr csr.toNat ++ ", csw=" ++ Nat.repr csw.toNat ++ ", mode=" ++ Nat.repr mode.toNat ++
        ", reset=" ++ Nat.repr rst.toNat ++ ", int=" ++ Nat.repr int.toNat ++ ", present=" ++ hexText 2 pres.toNat ++
        ", variant=" ++ bitText var.toBit ++ ", blankpol=" ++ bitText bpol.toBit ++ ", dshared=" ++ bitText dsh
  | .initPorts => "INIT_PORTS"
  | .initDevice md flags txt bg =>
      "INIT_DEVICE " ++ modeText md ++ ", " ++ hexText 2 flags.toNat ++ ", " ++ hexText 1 txt.toNat ++ ", " ++
        hexText 1 bg.toNat
  | .setMode md => "SET_MODE " ++ modeText md
  | .setBlank b => "SET_BLANK " ++ bitText b
  | .setIrqEnable b => "SET_IRQ_ENABLE " ++ bitText b
  | .setSpriteSize b => "SET_SPRITE_SIZE " ++ bitText b
  | .setSpriteMag b => "SET_SPRITE_MAG " ++ bitText b
  | .setTextColor c => "SET_TEXT_COLOR " ++ hexText 1 c.toNat
  | .setBgColor c => "SET_BG_COLOR " ++ hexText 1 c.toNat
  | .setRegRaw idx val => "SET_REG_RAW " ++ Nat.repr idx.toNat ++ ", " ++ hexText 2 val.toNat
  | .setAddr a rd => "SET_ADDR " ++ hexText 4 a.toNat ++ ", " ++ directionText rd
  | .bulkWrite h l m =>
      "BULK_WRITE " ++ hexText 4 h.toNat ++ ", " ++ Nat.repr l.toNat ++ ", " ++ Nat.repr m.toNat
  | .bulkRead h l m => "BULK_READ " ++ hexText 4 h.toNat ++ ", " ++ Nat.repr l.toNat ++ ", " ++ Nat.repr m.toNat
  | .readStatus => "READ_STATUS"
  | .setTableBase a t => "SET_TABLE_BASE " ++ tableText t ++ ", " ++ hexText 4 a.toNat
  | .clearFlags => "CLEAR_FLAGS"

end Sys2Proof.Machine
end

