-- ==== Sys2Proof/Safety.lean ====
section
/-! DEFINITION. What counts as a good state and a safe run, in the terms the statements use: legal parameters, legal pins,
the idle bus, the machine invariant, a state held in reset. -/

namespace Sys2Proof

/-- Parameters inside the ranges of R3: a budget in 1..65535, the five register-1 fields at five places outside the mode
bits, every mode's bits inside the mode mask, the two colours in the two nibbles. -/
structure Params.Wf (c : Params) : Prop where
  budget : c.windowBudget ≠ some 0
  fieldsOutsideMode :
    ∀ k ∈ [c.r1MemsizeBit, c.r1BlankBit, c.r1IeBit, c.r1SizeBit, c.r1MagBit], c.r1ModeMask.getLsbD k.val = false
  fieldsApart : [c.r1MemsizeBit, c.r1BlankBit, c.r1IeBit, c.r1SizeBit, c.r1MagBit].Nodup
  modeBitsInside :
    ∀ x ∈ [c.modeBits.graphicsI, c.modeBits.graphicsII, c.modeBits.bitmap, c.modeBits.text, c.modeBits.uninitialized],
      x &&& ~~~c.r1ModeMask = 0
  nibblesApart : (c.colorTextShift = 4 ∧ c.colorBgShift = 0) ∨ (c.colorTextShift = 0 ∧ c.colorBgShift = 4)

namespace Machine

/-- Nothing of the environment's lands before the adapter is idle: no operation is pending, or the next is the host's wait
for BUSY = 0 (R108). -/
def hostWaits : List Input → Bool
  | [] => true
  | .waitIdle :: _ => true
  | _ => false

/-- The host waits for the command to end, and ARST is released: nothing interrupts the command (R7, R108). -/
structure Quiet (s : State) : Prop where
  inputs : hostWaits s.inputs = true
  arst : s.arst = false

/-- The pin indices are legal (R25, R136). -/
structure PinsWf (s : State) : Prop where
  csr : s.idxCsr.toNat < 8
  csw : s.idxCsw.toNat < 8
  mode : s.idxMode.toNat < 8
  reset : s.idxReset.toNat < 8
  int : s.idxInt.toNat < 8
  csrCsw : s.idxCsr ≠ s.idxCsw
  csrMode : s.idxCsr ≠ s.idxMode
  csrReset : s.idxCsr ≠ s.idxReset
  cswMode : s.idxCsw ≠ s.idxMode
  cswReset : s.idxCsw ≠ s.idxReset
  modeReset : s.idxMode ≠ s.idxReset

/-- The idle bus of R139: every line at its deasserted level (R123), the role pins outputs, the interrupt pin an input,
the data bus output. -/
structure BusIdle (s : State) : Prop where
  csr : s.ctrlOut.getLsbD s.idxCsr.toNat = true
  csw : s.ctrlOut.getLsbD s.idxCsw.toNat = true
  mode : s.ctrlOut.getLsbD s.idxMode.toNat = !s.params.modeAssertLevel
  reset : s.ctrlOut.getLsbD s.idxReset.toNat = s.params.resetActiveLow
  csrOut : s.ctrlDir.getLsbD s.idxCsr.toNat = true
  cswOut : s.ctrlDir.getLsbD s.idxCsw.toNat = true
  modeOut : s.ctrlDir.getLsbD s.idxMode.toNat = true
  resetOut : s.ctrlDir.getLsbD s.idxReset.toNat = true
  intIn : s.intDir.getLsbD s.idxInt.toNat = false
  ddir : s.ddir = 0xFF

/-- CFG_PINS and INIT_PORTS have run and the bus is idle: the states in which a command that drives the bus has its
effect (R106, R139). -/
structure Ready (s : State) : Prop where
  quiet : Quiet s
  configured : s.configured = true
  portsInit : s.portsInit = true
  pins : PinsWf s
  idle : BusIdle s

/-- The steps left of a bulk command that stands in its window wait (R193, R194, R195). -/
def waitingOps (s : State) (l : BitVec 16) (byte : List MicroOp) : List MicroOp :=
  .windowWait :: (burstOps s.seqVariant true (effectiveCount s.params true l) l byte ++ [.finish .count])

/-- The machine is at rest, or stands in the window wait of a BULK_WRITE or a BULK_READ (R7, R46). -/
inductive Position (s : State) : Prop where
  | idle (busy : s.busy = false) (waitInt : s.waitInt = false) (todo : s.todo = [])
  | waitingWrite (h l m : BitVec 16) (busy : s.busy = true) (waitInt : s.waitInt = true) (paced : s.p = true)
      (ports : s.portsInit = true) (legal : lengthsValid l m = true) (todo : s.todo = waitingOps s l (writeByte h m))
  | waitingRead (h l m : BitVec 16) (busy : s.busy = true) (waitInt : s.waitInt = true) (paced : s.p = true)
      (ports : s.portsInit = true) (legal : lengthsValid l m = true) (todo : s.todo = waitingOps s l (readByte h m))

/-- The state ARST holds (R300): the reset values of R49, with what is not the adapter's kept from `s`: parameters,
HOSTMEM, the VDP, the environment's data. -/
def heldInReset (s : State) : State :=
  { State.reset with
    params := s.params
    arst := true
    hostmem := s.hostmem
    hostmemBefore := s.hostmemBefore
    inputs := s.inputs
    reads := s.reads
    memReads := s.memReads
    dinScript := s.dinScript
    intScript := s.intScript
    draws := s.draws
    vdp := s.vdp }

/-- The invariant of the machine between two steps: legal parameters, canonical memories, legal pins once configured
(R25), a data bus that is an input until the ports are initialised (R125, R137) and the idle bus from then on (R139), no
mode bit in the mirror (R52), a legal sequencer position (R7), nothing written yet by a command in its window wait (R194, R195:
its old HOSTMEM bytes are those it holds, R317), and the reset values while ARST is asserted (R300). -/
structure MachineInv (s : State) : Prop where
  params : s.params.Wf
  hostmem : s.hostmem.wf hostMemSize = true
  hostmemBefore : s.hostmemBefore.wf hostMemSize = true
  unwritten : s.busy = true → s.hostmemBefore = s.hostmem
  vram : ∀ v, s.vdp = some v → v.vram.wf vramSize = true
  pins : s.configured = true → PinsWf s
  ports : s.portsInit = true → s.configured = true
  undriven : s.portsInit = false → s.ddir = 0x00
  idle : s.portsInit = true → BusIdle s
  mirror : s.r1mir &&& s.params.r1ModeMask = 0
  position : Position s
  held : s.arst = true → s = heldInReset s

/-- The step answers a next state: the machine has not stopped. Every run of the adapter is safe in this sense (R280). -/
def Continues (s : State) : Prop := ∃ t, step s = .next t

/-- The host's write overran a running command at some time since the last CLEAR_FLAGS or reset (R41, R310). -/
def Overrun (s : State) : Prop := s.ovr = true

end Machine

end Sys2Proof
end

