-- ==== Sys2Proof/Safety/Expected.lean ====
section
/-! DEFINITION. What the rules say a command leaves behind, written from the spec's own tables and traces (R120-R138,
R150, R160-R168, R194-R199, R230) and not through the lists of steps the machine runs. The statements compare the machine
with these. -/

namespace Sys2Proof.Expected

open Sys2Proof.Machine

/-! ## Levels of the control port, from the value it has when the bus is idle -/

/-- CTRL_OUT with the mode line asserted (R123). -/
def modeOn (s : State) : Byte := withBit s.ctrlOut s.idxMode.toNat s.params.modeAssertLevel

/-- A value of CTRL_OUT with the write strobe asserted, active-low (R123). -/
def cswLow (s : State) (c : Byte) : Byte := withBit c s.idxCsw.toNat false

/-- A value of CTRL_OUT with the read strobe asserted, active-low (R123). -/
def csrLow (s : State) (c : Byte) : Byte := withBit c s.idxCsr.toNat false

/-! ## The end of a command -/

/-- `finish(r)` of a command whose position is then idle (R103). -/
def done (r : BitVec 16) (s : State) : State := { s with result := r, noopFlag := false, busy := false, todo := [] }

/-- `noop()` (R104): for a bulk command PARTIAL and PACED are cleared too. -/
def noopDone (bulk : Bool) (s : State) : State :=
  { s with
    result := 0
    noopFlag := true
    partialFlag := if bulk then false else s.partialFlag
    pacedFlag := if bulk then false else s.pacedFlag
    busy := false
    todo := [] }

/-- The guard of each command, the table of R106 with the arguments R92 and R136 call legal. -/
def guardHolds (s : State) (i : Instr) : Bool :=
  match i with
  | .nop => true
  | .cfgPins .. => !s.configured && i.WellFormed
  | .initPorts => s.configured
  | .initDevice .. => s.configured && s.portsInit && i.WellFormed
  | .setMode .. => s.configured && s.portsInit && i.WellFormed
  | .setBlank .. => s.configured && s.portsInit
  | .setIrqEnable .. => s.configured && s.portsInit
  | .setSpriteSize .. => s.configured && s.portsInit
  | .setSpriteMag .. => s.configured && s.portsInit
  | .setTextColor .. => s.configured && s.portsInit
  | .setBgColor .. => s.configured && s.portsInit
  | .setRegRaw .. => s.configured && s.portsInit && i.WellFormed
  | .setAddr .. => s.configured && s.portsInit
  | .bulkWrite .. => s.configured && s.portsInit && i.WellFormed
  | .bulkRead .. => s.configured && s.portsInit && i.WellFormed
  | .readStatus => s.configured && s.portsInit
  | .setTableBase .. => s.configured && i.WellFormed
  | .clearFlags => true

/-- BULK_WRITE and BULK_READ (R104). -/
def isBulk (i : Instr) : Bool := i.opcode == 0x0D || i.opcode == 0x0E

/-- `CW[hi:lo]` as a number (R5, R91). -/
def bits (w : CommandWord) (hi lo : Nat) : Nat := w.toNat / 2 ^ lo % 2 ^ (hi + 1 - lo)

/-! ## Port initialisation -/

/-- CTRL_OUT after INIT_PORTS has put one line after another at its idle level: CSW, CSR, MODE, RESET (R137). -/
def idleCtrl (s : State) : Byte :=
  withBit
    (withBit (withBit (withBit s.ctrlOut s.idxCsw.toNat true) s.idxCsr.toNat true) s.idxMode.toNat
      (!s.params.modeAssertLevel))
    s.idxReset.toNat s.params.resetActiveLow

/-- A byte of the control port with the bits the adapter owns cleared: the host's bits (R134, R140). -/
def hostBits (s : State) (b : Byte) : Byte := b &&& ~~~s.roleMask

/-- An event on the control port that keeps the host's bits as they are in `s` (R140). -/
def eventKeepsHostBits (s : State) : Event → Prop
  | .ctrl v => hostBits s v = hostBits s s.ctrlOut
  | .ctrlDir v => hostBits s v = hostBits s s.ctrlDir
  | _ => True

/-- The seven events of INIT_PORTS (R137). -/
def initPortsEvents (s : State) : List Event :=
  let c1 := withBit s.ctrlOut s.idxCsw.toNat true
  let c2 := withBit c1 s.idxCsr.toNat true
  let c3 := withBit c2 s.idxMode.toNat (!s.params.modeAssertLevel)
  [.ctrl c1, .ctrl c2, .ctrl c3, .ctrl (idleCtrl s), .ctrlDir (s.ctrlDir ||| s.roleMask),
    .intDir (withBit s.intDir s.idxInt.toNat false), .ddir 0xFF]

/-- The one frame the VDP can see of INIT_PORTS: where the host had made the write-strobe pin an output at its asserted
level before CFG_PINS gave the pin its role, the first `Deassert(CSW)` is a rising edge (R132, R137). The host began that
pulse; it is no frame the adapter emits (R111; log 10). -/
def hostPulse (s : State) : List Frame :=
  if s.configured && s.ctrlDir.getLsbD s.idxCsw.toNat && !s.ctrlOut.getLsbD s.idxCsw.toNat then
    [⟨.write, s.ctrlOut.getLsbD s.idxMode.toNat == s.params.modeAssertLevel, s.dout⟩]
  else []

/-- The state INIT_PORTS leaves before `finish(0)` (R137); an attached reference VDP has taken the frame that ends a pulse
the host had begun, if there is one (R132). -/
def afterInitPorts (s : State) : State :=
  { s with
    ctrlOut := idleCtrl s
    ctrlDir := s.ctrlDir ||| s.roleMask
    intDir := withBit s.intDir s.idxInt.toNat false
    ddir := 0xFF
    portsInit := true
    trace := (initPortsEvents s).reverse ++ s.trace
    vdp := s.vdp.map fun v => (hostPulse s).foldl (fun v f => v.writeFrame f.framing f.byte) v }

/-! ## Framing pairs -/

/-- The eight events of a framing pair from the idle bus, in both sequencing variants (R138; V-L2-BS-7, V-L2-BS-8). -/
def pairEvents (s : State) (b1 b2 : Byte) : List Event :=
  match s.seqVariant with
  | .modeFirst =>
      [.ctrl (modeOn s), .data b1, .ctrl (cswLow s (modeOn s)), .ctrl (modeOn s),
        .data b2, .ctrl (cswLow s (modeOn s)), .ctrl (modeOn s), .ctrl s.ctrlOut]
  | .modeAfterStrobe =>
      [.data b1, .ctrl (cswLow s s.ctrlOut), .ctrl (cswLow s (modeOn s)), .ctrl (modeOn s),
        .data b2, .ctrl (cswLow s (modeOn s)), .ctrl (modeOn s), .ctrl s.ctrlOut]

/-- The state after one framing pair: the events, DOUT holding the second byte, and the reference VDP, where one is
attached, having taken both framing bytes. Nothing else changes. -/
def afterPair (s : State) (b : Byte × Byte) : State :=
  { s with
    dout := b.2
    trace := (pairEvents s b.1 b.2).reverse ++ s.trace
    vdp := s.vdp.map fun v => (v.writeFrame true b.1).writeFrame true b.2 }

/-- The state after several framing pairs, in order. -/
def afterPairs (s : State) (bs : List (Byte × Byte)) : State := bs.foldl afterPair s

/-- The pair that writes VDP register `i` (R96, R160): the value, then `0x80 | i`. -/
def registerPair (i : BitVec 3) (v : Byte) : Byte × Byte := (v, 0x80#8 ||| i.setWidth 8)

/-- The pair that sets the VDP cursor (R97, R150): the low byte, then bit 7 = 0, bit 6 = 1 for writing, `a[13:8]`. -/
def addressPair (a : VramAddr) (rd : Direction) : Byte × Byte :=
  (a.setWidth 8, (if rd = .forRead then 0b00#2 else 0b01#2) ++ a.extractLsb' 8 6)

/-- The pairs ApplyMode sends, a column of the table of R168 for each mode (R167). -/
def modePairs (c : Params) (m : Mode) (r1 col : Byte) (t : TableBases) : List (Byte × Byte) :=
  let r1sent (bits : Byte) : Byte := (r1 &&& ~~~c.r1ModeMask) ||| bits
  let name : Byte := (t.name >>> 10).setWidth 8
  let colour : Byte := (t.colour >>> 6).setWidth 8
  let pattern : Byte := (t.pattern >>> 11).setWidth 8
  let sattr : Byte := (t.spriteAttribute >>> 7).setWidth 8
  let spat : Byte := (t.spritePattern >>> 11).setWidth 8
  match m with
  | .graphicsI =>
      [(0x00, 0x80), (r1sent c.modeBits.graphicsI, 0x81), (name, 0x82), (colour, 0x83), (pattern, 0x84), (sattr, 0x85),
        (spat, 0x86), (col, 0x87)]
  | .graphicsII =>
      [(c.r0ExtBit, 0x80), (r1sent c.modeBits.graphicsII, 0x81), (name, 0x82),
        (if t.colour = 0 then 0x7F else 0xFF, 0x83), (if t.pattern = 0 then 0x03 else 0x07, 0x84), (sattr, 0x85),
        (spat, 0x86), (col, 0x87)]
  | .bitmap =>
      [(0x00, 0x80), (r1sent c.modeBits.bitmap, 0x81), (name, 0x82), (colour, 0x83), (pattern, 0x84), (sattr, 0x85),
        (spat, 0x86), (col, 0x87)]
  | .text => [(0x00, 0x80), (r1sent c.modeBits.text, 0x81), (name, 0x82), (pattern, 0x84), (col, 0x87)]
  | .uninitialized => []

/-- The register-1 byte a setter sends: the mirror with the current mode's bits (R240). -/
def setterByte (s : State) (x : Byte) : Byte := (x &&& ~~~s.params.r1ModeMask) ||| modeBitsOf s.params.modeBits s.curMode

/-! ## Status reads -/

/-- The seven events of a status read from the idle bus that returns `b` (R230; V-L2-SR-1, V-L2-SR-2). -/
def statusEvents (s : State) (b : Byte) : List Event :=
  match s.seqVariant with
  | .modeFirst =>
      [.ctrl (modeOn s), .ddir 0x00, .ctrl (csrLow s (modeOn s)), .sampD b, .ctrl (modeOn s), .ddir s.ddir,
        .ctrl s.ctrlOut]
  | .modeAfterStrobe =>
      [.ddir 0x00, .ctrl (csrLow s s.ctrlOut), .ctrl (csrLow s (modeOn s)), .sampD b, .ctrl (modeOn s), .ddir s.ddir,
        .ctrl s.ctrlOut]

/-- The state after a status read whose byte went to VDPSTAT (R199, R230, R231): DDIR as it was, the byte a free choice of
the VDP. -/
def afterStatus (s : State) : State :=
  { s with
    savedDdir := s.ddir
    latch := anyByte s
    vdpstat := anyByte s
    trace := (statusEvents s (anyByte s)).reverse ++ s.trace
    vdp := s.vdp.map fun v => v.readFrame true
    dinScript := s.dinScript.tail
    draws := s.draws + 1 }

/-! ## Bursts -/

/-- The host address of byte `k`: `(H + (k mod M)) mod 2^16` (R202). -/
def byteAddress (h m : BitVec 16) (k : Nat) : HostAddr := BitVec.ofNat 16 (h.toNat + k % m.toNat)

/-- The delay before byte `k` (R198): none before the first, none when paced. -/
def gap (s : State) (paced : Bool) (k : Nat) : List Event := if paced ∨ k = 0 then [] else [.delay s.params.delay]

/-- The events of byte `k` of a write burst, with the byte `v` (R194; V-L2-BT-1). -/
def writeByteEvents (s : State) (paced : Bool) (k : Nat) (a : HostAddr) (v : Byte) : List Event :=
  gap s paced k ++ [.hrd a v, .data v, .ctrl (cswLow s s.ctrlOut), .ctrl s.ctrlOut]

/-- The events of byte `k` of a read burst, with the byte `v` (R195; V-L2-BT-8). -/
def readByteEvents (s : State) (paced : Bool) (k : Nat) (a : HostAddr) (v : Byte) : List Event :=
  gap s paced k ++ [.ctrl (csrLow s s.ctrlOut), .sampD v, .ctrl s.ctrlOut, .hwr a v]

/-- The state after byte `k` of a write burst: HRd, then a write pulse with the byte read (R194; V-L2-BT-1). -/
def afterWriteByte (paced : Bool) (h m : BitVec 16) (k : Nat) (s : State) : State :=
  { s with
    i := BitVec.ofNat 16 k
    latch := s.hostmem.hostRead (byteAddress h m k)
    dout := s.hostmem.hostRead (byteAddress h m k)
    trace :=
      (writeByteEvents s paced k (byteAddress h m k) (s.hostmem.hostRead (byteAddress h m k))).reverse ++ s.trace
    vdp := s.vdp.map fun v => v.writeFrame false (s.hostmem.hostRead (byteAddress h m k)) }

/-- The state after the first `n` bytes of a write burst. -/
def afterWriteBytes (paced : Bool) (h m : BitVec 16) : Nat → State → State
  | 0, s => s
  | n + 1, s => afterWriteByte paced h m n (afterWriteBytes paced h m n s)

/-- The byte the reference VDP answers to a data read, none where the byte is any value (R84, R86, R201): with no
reference VDP, with DOUT driven onto the sampled lines, or where its model gives no result. -/
def dataAnswer (s : State) : Option Byte :=
  match s.vdp with
  | none => none
  | some v => if s.dshared ∨ ¬v.isolated then none else v.answer false

/-- The byte a data read samples (R126, R201). -/
def dataByte (s : State) : Byte := (dataAnswer s).getD (anyByte s)

/-- The state after byte `k` of a read burst: a read pulse, then HWr with the byte sampled (R195; V-L2-BT-8). DDIR is not
touched (R201). -/
def afterReadByte (paced : Bool) (h m : BitVec 16) (k : Nat) (s : State) : State :=
  { s with
    i := BitVec.ofNat 16 k
    latch := dataByte s
    hostmem := s.hostmem.hostWrite (byteAddress h m k) (dataByte s)
    trace := (readByteEvents s paced k (byteAddress h m k) (dataByte s)).reverse ++ s.trace
    vdp := s.vdp.map fun v => v.readFrame false
    dinScript := if (dataAnswer s).isSome then s.dinScript else s.dinScript.tail
    draws := s.draws + 1 }

/-- The state after the first `n` bytes of a read burst. -/
def afterReadBytes (paced : Bool) (h m : BitVec 16) : Nat → State → State
  | 0, s => s
  | n + 1, s => afterReadByte paced h m n (afterReadBytes paced h m n s)

/-- The effective count `N = P ? min(L, WINDOW_BUDGET) : L` (R192). -/
def count (s : State) (paced : Bool) (l : BitVec 16) : BitVec 16 :=
  BitVec.ofNat 16 (if paced then min l.toNat s.params.budget.toNat else l.toNat)

/-- A burst's end: the status read after the last byte, PARTIAL, PACED, `finish(N)` (R194, R199, R200). -/
def burstDone (paced : Bool) (n l : BitVec 16) (s : State) : State :=
  done n { afterStatus s with partialFlag := n.toNat < l.toNat, pacedFlag := paced }

/-- What a write burst does once its bytes may move (R194): from the gate's decision to the end. -/
def afterWriteBurst (paced : Bool) (h l m : BitVec 16) (s : State) : State :=
  burstDone paced (count s paced l) l
    (afterWriteBytes paced h m (count s paced l).toNat { s with p := paced, n := count s paced l })

/-- What a read burst does once its bytes may move (R195). -/
def afterReadBurst (paced : Bool) (h l m : BitVec 16) (s : State) : State :=
  burstDone paced (count s paced l) l
    (afterReadBytes paced h m (count s paced l).toNat { s with p := paced, n := count s paced l })

/-! ## The window wait -/

/-- One sample of the INT pin in the window wait (R193): WAIT_INT stays 1 unless the level is INT_WAIT_LEVEL. -/
def afterIntSample (s : State) : State :=
  { s with
    waitInt := intLevel s != s.params.intWaitLevel
    trace := .sampI (intLevel s) :: s.trace
    intScript := if s.vdp.isSome then s.intScript else s.intScript.tail
    draws := s.draws + 1 }

/-- The state of a bulk command whose first sample did not find the level: BUSY = 1, WAIT_INT = 1, nothing moved. -/
def waitingState (l : BitVec 16) (byte : List MicroOp) (s : State) : State :=
  { afterIntSample s with busy := true, p := true, todo := waitingOps s l byte }

/-- A sample of the INT pin (R127). -/
def isIntSample : Event → Bool
  | .sampI _ => true
  | _ => false

/-- `o` is what a bulk command answers when its bytes move (R7, R190, R193): the command `i` starting in `s`, unpaced or
with the awaited level on the INT pin, or the step that finds that level while the command stands in its window wait. -/
def BurstRuns (i : Instr) (l : BitVec 16) (byte : List MicroOp) (paced : Bool) (s : State)
    (o : Host.Outcome State Fault Refusal) : Prop :=
  (gate s = paced ∧ (paced = true → intLevel s = s.params.intWaitLevel) ∧ o = exec i s) ∨
    (paced = true ∧ s.busy = true ∧ s.p = true ∧ s.todo = waitingOps s l byte ∧
      intLevel s = s.params.intWaitLevel ∧ o = step s)

/-! ## What the bus shows -/

/-- The frames of a command: whatever is sent with the mode line asserted comes in pairs whose second byte is
`0x80..0x87` or `0x00..0x7F` (R96, R97, R111). -/
def wellFramed : List Frame → Bool
  | [] => true
  | ⟨.write, true, _⟩ :: ⟨.write, true, b⟩ :: rest => b.toNat < 0x88 && wellFramed rest
  | ⟨.write, true, _⟩ :: _ => false
  | ⟨.write, false, _⟩ :: rest => wellFramed rest
  | ⟨.read, _, _⟩ :: rest => wellFramed rest

/-- A status frame is the last frame of a command, and the only read with the mode line asserted (R99, R111, R199). -/
def statusLast : List Frame → Bool
  | [] => true
  | [_] => true
  | ⟨.read, true, _⟩ :: _ => false
  | _ :: rest => statusLast rest

/-- The events a state's trace has beyond another's, oldest first. -/
def newEvents (s t : State) : List Event := (t.trace.take (t.trace.length - s.trace.length)).reverse

/-- A list of frames is one the adapter may emit (R111). -/
def LegalFrames (fs : List Frame) : Prop := wellFramed fs = true ∧ statusLast fs = true

/-- The frames the VDP sees of those events, walked from where `s` stands (R132). -/
def seenFrames (s t : State) : List Frame := framesFrom s.walk (newEvents s t)

/-- The frames of those events that the adapter emits; no pulse of its own is under way where a step begins (R7, R111). -/
def emittedFrames (s t : State) : List Frame := emittedFrom s.walk false (newEvents s t)

/-- The new events and the control port of `t` keep the host's bits of `s` (R140). -/
def HostBitsKept (s t : State) : Prop :=
  hostBits s t.ctrlOut = hostBits s s.ctrlOut ∧ hostBits s t.ctrlDir = hostBits s s.ctrlDir ∧
    ∀ e ∈ newEvents s t, eventKeepsHostBits s e

end Sys2Proof.Expected
end

