-- ==== Sys2Proof/Certificates/Slice0/Obligations.lean ====
section
/-! DEFINITION. The statements for the provers, from the spec's numbered rules. OBLIGATIONS.json lists them with the rules
they state. Where a command's next state is given, it is the whole state: what an equation does not name is unchanged. -/

section

open Sys2Proof Sys2Proof.Machine Sys2Proof.Expected

/-! ## Encoding -/

/-- Every command is read back from its own word, with every operand at every value its field admits (R90, R91, R94). -/
def Obligations.DecodeAfterEncodeGivesTheCommand : Prop := ∀ i : Instr, decode (encode i) = .ok i

/-- R91: every operand is the number `CW[hi:lo]` of its format. -/
def Obligations.OperandsAreTheListedBits : Prop :=
  ∀ w : CommandWord,
    (bits w 63 56 = 0x01 → ∃ csr csw mode rst int pres var bpol dsh,
      decode w = .ok (.cfgPins csr csw mode rst int pres var bpol dsh) ∧ csr.toNat = bits w 3 0 ∧
        csw.toNat = bits w 7 4 ∧ mode.toNat = bits w 11 8 ∧ rst.toNat = bits w 15 12 ∧ int.toNat = bits w 19 16 ∧
        pres.toNat = bits w 27 20 ∧ (var = .modeAfterStrobe ↔ bits w 28 28 = 1) ∧
        (bpol = .setMeansBlanked ↔ bits w 29 29 = 1) ∧ (dsh = true ↔ bits w 30 30 = 1)) ∧
    (bits w 63 56 = 0x03 → ∃ md flags txt bg, decode w = .ok (.initDevice md flags txt bg) ∧ md.toNat = bits w 2 0 ∧
      flags.toNat = bits w 15 8 ∧ txt.toNat = bits w 19 16 ∧ bg.toNat = bits w 23 20) ∧
    (bits w 63 56 = 0x04 → ∃ md, decode w = .ok (.setMode md) ∧ md.toNat = bits w 2 0) ∧
    (bits w 63 56 = 0x05 → ∃ b, decode w = .ok (.setBlank b) ∧ (b = true ↔ bits w 0 0 = 1)) ∧
    (bits w 63 56 = 0x06 → ∃ b, decode w = .ok (.setIrqEnable b) ∧ (b = true ↔ bits w 0 0 = 1)) ∧
    (bits w 63 56 = 0x07 → ∃ b, decode w = .ok (.setSpriteSize b) ∧ (b = true ↔ bits w 0 0 = 1)) ∧
    (bits w 63 56 = 0x08 → ∃ b, decode w = .ok (.setSpriteMag b) ∧ (b = true ↔ bits w 0 0 = 1)) ∧
    (bits w 63 56 = 0x09 → ∃ c, decode w = .ok (.setTextColor c) ∧ c.toNat = bits w 3 0) ∧
    (bits w 63 56 = 0x0A → ∃ c, decode w = .ok (.setBgColor c) ∧ c.toNat = bits w 3 0) ∧
    (bits w 63 56 = 0x0B → ∃ idx val, decode w = .ok (.setRegRaw idx val) ∧ idx.toNat = bits w 15 8 ∧
      val.toNat = bits w 7 0) ∧
    (bits w 63 56 = 0x0C → ∃ a rd, decode w = .ok (.setAddr a rd) ∧ a.toNat = bits w 13 0 ∧
      (rd = .forRead ↔ bits w 16 16 = 1)) ∧
    (bits w 63 56 = 0x0D → ∃ h l m, decode w = .ok (.bulkWrite h l m) ∧ h.toNat = bits w 47 32 ∧
      l.toNat = bits w 31 16 ∧ m.toNat = bits w 15 0) ∧
    (bits w 63 56 = 0x0E → ∃ h l m, decode w = .ok (.bulkRead h l m) ∧ h.toNat = bits w 47 32 ∧
      l.toNat = bits w 31 16 ∧ m.toNat = bits w 15 0) ∧
    (bits w 63 56 = 0x10 → ∃ a t, decode w = .ok (.setTableBase a t) ∧ a.toNat = bits w 13 0 ∧
      t.toNat = bits w 18 16)

/-- R94: the opcode alone selects the command; the opcodes 0x00..0x11 are commands, and R95: the others are none. -/
def Obligations.OpcodeAloneSelectsTheCommand : Prop :=
  (∀ w i, decode w = .ok i → i.opcode = opcodeOf w) ∧
  (∀ w, (∃ i, decode w = .ok i) ↔ bits w 63 56 ≤ 0x11) ∧
  (∀ w, bits w 63 56 = 0x00 → decode w = .ok .nop) ∧
  (∀ w, bits w 63 56 = 0x02 → decode w = .ok .initPorts) ∧
  (∀ w, bits w 63 56 = 0x0F → decode w = .ok .readStatus) ∧
  (∀ w, bits w 63 56 = 0x11 → decode w = .ok .clearFlags) ∧
  ∀ w, 0x12 ≤ bits w 63 56 → decode w = .error (.unassignedOpcode (opcodeOf w))

/-- R93: two words that agree on the opcode and on the bits their format lists are the same command, and the step that
accepts either leaves the same state but for the hidden copy CW of the word (R23), whatever the host does meanwhile. -/
def Obligations.ReservedBitsHaveNoEffect : Prop :=
  ∀ w w' s, (w ^^^ w') &&& listedBits (opcodeOf w) = 0 →
    decode w' = decode w ∧
      ∃ t t', step (presentCommand w s) = .next t ∧ step (presentCommand w' s) = .next t' ∧
        { t with cw := 0 } = { t' with cw := 0 }

/-- Words written out from R91 and R94, the examples of the command rules, decode to the commands they stand for. -/
def Obligations.WrittenOutWordsDecode : Prop :=
  decode 0x0000000000000000 = .ok .nop ∧
  decode 0x010000000FF03210 = .ok (.cfgPins 0 1 2 3 0 0xFF .modeFirst .setMeansDisplay false) ∧
  decode 0x0200000000000000 = .ok .initPorts ∧
  decode 0x03000000001FC000 = .ok (.initDevice 0 0xC0 0xF 0x1) ∧
  decode 0x0400000000000001 = .ok (.setMode 1) ∧
  decode 0x0500000000000001 = .ok (.setBlank true) ∧
  decode 0x0600000000000001 = .ok (.setIrqEnable true) ∧
  decode 0x0700000000000001 = .ok (.setSpriteSize true) ∧
  decode 0x0800000000000001 = .ok (.setSpriteMag true) ∧
  decode 0x0900000000000004 = .ok (.setTextColor 0x4) ∧
  decode 0x0A00000000000005 = .ok (.setBgColor 0x5) ∧
  decode 0x0B000000000007F1 = .ok (.setRegRaw 7 0xF1) ∧
  decode 0x0C00000000001234 = .ok (.setAddr 0x1234 .forWrite) ∧
  decode 0x0C00000000011234 = .ok (.setAddr 0x1234 .forRead) ∧
  decode 0x0D00010008000001 = .ok (.bulkWrite 0x0100 2048 1) ∧
  decode 0x0E00020001000100 = .ok (.bulkRead 0x0200 256 256) ∧
  decode 0x0F00000000000000 = .ok .readStatus ∧
  decode 0x1000000000012000 = .ok (.setTableBase 0x2000 1) ∧
  decode 0x1100000000000000 = .ok .clearFlags

/-! ## The command cycle -/

/-- R101: a word written while BUSY = 0 starts the command it decodes to, with CW holding the word and BUSY = 1. The
model's own record of the old HOSTMEM bytes (log 15) begins with what HOSTMEM holds. -/
def Obligations.StepRunsTheDecodedCommand : Prop :=
  ∀ s w rest i, s.inputs = .command w :: rest → s.busy = false → s.arst = false → decode w = .ok i →
    step s = exec i { s with inputs := rest, cw := w, busy := true, hostmemBefore := s.hostmem }

/-- R95: an accepted word whose opcode is in 0x12..0xFF sets ILL and ends as a no-op: RESULT and NOOP beside it, no bus
event, nothing else of the adapter's (for `hostmemBefore`, log 15). -/
def Obligations.UnassignedOpcodeSetsIllAndIsANoop : Prop :=
  ∀ s w rest, s.inputs = .command w :: rest → hostWaits rest = true → s.busy = false → s.arst = false →
    0x12 ≤ bits w 63 56 →
    step s = .next (noopDone false { s with inputs := rest, cw := w, ill := true, hostmemBefore := s.hostmem })

/-- R280: no step and no command ends in a trap, an abort or a fault state: each answers a next state. -/
def Obligations.NothingEndsInAFault : Prop :=
  (∀ s, Continues s) ∧ ∀ i s, ∃ t, exec i s = .next t

/-- R104, R106: a command whose guard is false is a no-op, for every command and every legal or illegal operand. -/
def Obligations.FailedGuardIsASilentNoop : Prop :=
  ∀ i s, Quiet s → guardHolds s i = false → exec i s = .next (noopDone (isBulk i) s)

/-- R102, R103: a command whose guard is true ends with `finish`, never as a no-op, or stands in its window wait. -/
def Obligations.PassedGuardFinishes : Prop :=
  ∀ i s, Quiet s → guardHolds s i = true →
    ∃ t, exec i s = .next t ∧
      ((t.busy = false ∧ t.noopFlag = false ∧ t.todo = []) ∨
        (isBulk i = true ∧ gate s = true ∧ t.busy = true ∧ t.waitInt = true ∧ t.result = s.result))

/-- R100: a word written while BUSY = 1 is discarded and sets OVR. The command in its window wait goes on as if the word
had not been written; only OVR, and what the host reads of it, differ. -/
def Obligations.CommandWhileBusyIsDropped : Prop :=
  (∀ s w, s.busy = true → s.arst = false → landInput (.command w) s = { s with ovr := true }) ∧
  ∀ s w rest, MachineInv s → s.busy = true → s.arst = false → s.inputs = .command w :: rest →
    ∃ t u, step s = .next t ∧ step { s with inputs := rest } = .next u ∧
      { t with ovr := u.ovr, reads := u.reads } = u ∧ (t.arst = false → t.ovr = true)

/-! ## Housekeeping -/

/-- R270: NOP ends with RESULT = 0 and NOOP = 0 in every state, with no bus event. -/
def Obligations.NopFinishesInEveryState : Prop := ∀ s, Quiet s → exec .nop s = .next (done 0 s)

/-- R271: SET_TABLE_BASE stores A in TBASE[T], with no bus event; T = 5..7, or no valid CFG_PINS before, is a no-op. -/
def Obligations.SetTableBaseStoresTheBase : Prop :=
  ∀ s a, Quiet s →
    (s.configured = true →
      exec (.setTableBase a 0) s = .next (done 0 { s with tbase := { s.tbase with name := a } }) ∧
      exec (.setTableBase a 1) s = .next (done 0 { s with tbase := { s.tbase with colour := a } }) ∧
      exec (.setTableBase a 2) s = .next (done 0 { s with tbase := { s.tbase with pattern := a } }) ∧
      exec (.setTableBase a 3) s = .next (done 0 { s with tbase := { s.tbase with spriteAttribute := a } }) ∧
      exec (.setTableBase a 4) s = .next (done 0 { s with tbase := { s.tbase with spritePattern := a } })) ∧
    ∀ t : BitVec 3, s.configured = false ∨ 5 ≤ t.toNat → exec (.setTableBase a t) s = .next (noopDone false s)

/-- R272: CLEAR_FLAGS clears OVR and ILL, RESULT and NOOP; written while BUSY = 1 it is itself dropped and sets OVR. -/
def Obligations.ClearFlagsClearsTheStickyFlags : Prop :=
  (∀ s, Quiet s → exec .clearFlags s = .next (done 0 { s with ovr := false, ill := false })) ∧
  ∀ s, s.busy = true → s.arst = false → landInput (.command (encode .clearFlags)) s = { s with ovr := true }

/-! ## Bus signaler -/

/-- R136: with CONFIGURED = 0 and valid fields CFG_PINS latches the five indices and the three strategy bits and sets
CONFIGURED, with no bus event; otherwise it is a no-op. -/
def Obligations.CfgPinsConfiguresOnce : Prop :=
  ∀ s csr csw mode rst int pres var bpol dsh, Quiet s →
    (s.configured = false ∧ pres = 0xFF ∧ csr.toNat < 8 ∧ csw.toNat < 8 ∧ mode.toNat < 8 ∧ rst.toNat < 8 ∧
        int.toNat < 8 ∧ [csr, csw, mode, rst].Nodup →
      exec (.cfgPins csr csw mode rst int pres var bpol dsh) s =
        .next (done 0
          { s with
            idxCsr := csr, idxCsw := csw, idxMode := mode, idxReset := rst, idxInt := int, seqVariant := var,
            blankPol := bpol, dshared := dsh, configured := true })) ∧
    (¬(s.configured = false ∧ pres = 0xFF ∧ csr.toNat < 8 ∧ csw.toNat < 8 ∧ mode.toNat < 8 ∧ rst.toNat < 8 ∧
        int.toNat < 8 ∧ [csr, csw, mode, rst].Nodup) →
      exec (.cfgPins csr csw mode rst int pres var bpol dsh) s = .next (noopDone false s))

/-- R137: INIT_PORTS puts the four lines at their idle levels, then makes the role pins outputs, the interrupt pin an
input and the data bus output. The VDP sees no frame of it, but for the end of a pulse that the host had begun on the driven
write-strobe pin before CFG_PINS (R132); that an undriven pin shows no frame is V-L2-BS-5, as log 10 reads it. -/
def Obligations.InitPortsMakesTheBusIdle : Prop :=
  ∀ s, Quiet s →
    (s.configured = true → PinsWf s →
      exec .initPorts s = .next (done 0 (afterInitPorts s)) ∧ BusIdle (done 0 (afterInitPorts s)) ∧
        framesFrom s.walk (initPortsEvents s) = hostPulse s) ∧
    (s.configured = false → exec .initPorts s = .next (noopDone false s))

/-- R138, R160, R150: in both sequencing variants the events of a framing pair are exactly two write frames with the mode
line asserted, and the mode line is deasserted at the end. -/
def Obligations.FramingPairIsTwoFrames : Prop :=
  ∀ s b1 b2, s.configured = true → PinsWf s → BusIdle s →
    framesFrom s.walk (pairEvents s b1 b2) = [⟨.write, true, b1⟩, ⟨.write, true, b2⟩] ∧
      (pairEvents s b1 b2).getLast? = some (.ctrl s.ctrlOut) ∧
      s.ctrlOut.getLsbD s.idxMode.toNat = !s.params.modeAssertLevel

/-- R134, R135: a masked host write changes exactly the bits of its mask the adapter does not own, and appends one event. It
is no frame (R325): from CFG_PINS on because the strobes are owned, before it because no pin is a strobe, which is the
model's reading (log 10). -/
def Obligations.HostWritesKeepTheRoleBits : Prop :=
  ∀ s mask val, s.arst = false →
    let owned (j : Nat) : Prop :=
      s.configured = true ∧ (j = s.idxCsr.toNat ∨ j = s.idxCsw.toNat ∨ j = s.idxMode.toNat ∨ j = s.idxReset.toNat)
    (∃ v : Byte, landInput (.ctrlWrite mask val) s = { s with ctrlOut := v, trace := .ctrl v :: s.trace } ∧
      ∀ j < 8, (mask.getLsbD j = true ∧ ¬owned j → v.getLsbD j = val.getLsbD j) ∧
        (mask.getLsbD j = false ∨ owned j → v.getLsbD j = s.ctrlOut.getLsbD j)) ∧
    ∃ v : Byte, landInput (.ctrlDirWrite mask val) s = { s with ctrlDir := v, trace := .ctrlDir v :: s.trace } ∧
      ∀ j < 8, (mask.getLsbD j = true ∧ ¬owned j → v.getLsbD j = val.getLsbD j) ∧
        (mask.getLsbD j = false ∨ owned j → v.getLsbD j = s.ctrlDir.getLsbD j)

/-- R140: the adapter's own steps never change a CTRL_OUT or CTRL_DIR bit outside ROLE_MASK: no single step of a command's
pseudocode does, once the pins have their roles; and along a command that nothing interrupts, or the rest of one after its
window wait, every `Ctrl` and `CtrlDir` event, and the port at the end, keeps those bits. -/
def Obligations.AdapterKeepsTheHostsBits : Prop :=
  (∀ op s, s.configured = true →
    hostBits s (perform op s).ctrlOut = hostBits s s.ctrlOut ∧ hostBits s (perform op s).ctrlDir = hostBits s s.ctrlDir) ∧
  (∀ i s t, Quiet s → exec i s = .next t → HostBitsKept s t) ∧
  ∀ s t, MachineInv s → Quiet s → s.busy = true → step s = .next t → HostBitsKept s t

/-- R325: host writes to the control port that land at any point of a command, or of the rest of one after its window wait,
change no frame of it, and nothing but the two registers they write and their own events. While CFG_PINS runs there are no
frames to change: no pin is a strobe before its end (log 10). -/
def Obligations.HostWritesChangeNoFrame : Prop :=
  ∀ l : List Input,
    (∀ x ∈ l, x = .advance ∨ (∃ mask val, x = .ctrlWrite mask val) ∨ ∃ mask val, x = .ctrlDirWrite mask val) →
    let same (s t t' : State) : Prop :=
      seenFrames s t = seenFrames s t' ∧
        { t with ctrlOut := t'.ctrlOut, ctrlDir := t'.ctrlDir, trace := t'.trace, inputs := t'.inputs } = t'
    (∀ i s t t', s.arst = false → (s.configured = true → PinsWf s) →
      exec i { s with inputs := l } = .next t → exec i { s with inputs := [] } = .next t' → same s t t') ∧
    ∀ s t t', MachineInv s → s.busy = true →
      step { s with inputs := l } = .next t → step { s with inputs := [] } = .next t' → same s t t'

/-- R133: traces that are equivalent show the VDP the same frames, and leave the walk at the same place. -/
def Obligations.EquivalentTracesShowTheSameFrames : Prop :=
  ∀ r w a b, w.ctrl = r.ctrlOut → w.dir = r.ctrlDir → w.dout = r.dout → traceEquivalent r a b = true →
    framesFrom w a = framesFrom w b ∧ walkAfter w a = walkAfter w b

/-! ## Address latch -/

/-- R151, R150: SET_ADDR sends the low byte, then `0x40` for writing or `0x00` for reading with the upper address bits;
the adapter keeps no record of the address. -/
def Obligations.SetAddrSendsTheAddressPair : Prop :=
  ∀ s a rd,
    (Ready s → ∃ b1 b2 : Byte,
      exec (.setAddr a rd) s = .next (done 0 (afterPair s (b1, b2))) ∧ b1.toNat = a.toNat % 256 ∧
        b2.toNat = (if rd = .forRead then 0x00 else 0x40) + a.toNat / 256) ∧
    (Quiet s → gReady s = false → exec (.setAddr a rd) s = .next (noopDone false s))

/-! ## Register programmer -/

/-- R169, R160: SET_REG_RAW sends the value, then `0x80 | IDX`; no mirror changes; IDX in 8..255 is a no-op. -/
def Obligations.SetRegRawProgramsOneRegister : Prop :=
  ∀ s (idx val : BitVec 8),
    (Ready s → idx.toNat ≤ 7 → exec (.setRegRaw idx val) s = .next (done 0 (afterPair s (val, 0x80#8 ||| idx)))) ∧
    (Quiet s → gReady s = false ∨ 8 ≤ idx.toNat → exec (.setRegRaw idx val) s = .next (noopDone false s))

/-- R170, R167, R168: SET_MODE pushes the register table of the mode, in ascending register order, and sets CURMODE; the
mirrors and the bases do not change; MD = 4..7 is a no-op. -/
def Obligations.SetModePushesTheRegisterTable : Prop :=
  ∀ s,
    (Ready s → ∀ md m, (md, m) ∈ [(0#3, Mode.graphicsI), (1#3, .graphicsII), (2#3, .bitmap), (3#3, .text)] →
      exec (.setMode md) s =
        .next (done 0 { afterPairs s (modePairs s.params m s.r1mir s.colmir s.tbase) with curMode := m })) ∧
    (Quiet s → ∀ md : BitVec 3, gReady s = false ∨ 4 ≤ md.toNat → exec (.setMode md) s = .next (noopDone false s))

/-- R171: INIT_DEVICE stores the flags without the mode bits in R1MIR and both colours in COLMIR, then pushes the register
table with them. -/
def Obligations.InitDeviceSetsTheMirrorsAndTheMode : Prop :=
  ∀ s flags (txt bg : BitVec 4),
    (Ready s → ∀ md m, (md, m) ∈ [(0#3, Mode.graphicsI), (1#3, .graphicsII), (2#3, .bitmap), (3#3, .text)] →
      ∃ x y : Byte,
        (∀ j < 8, x.getLsbD j = (flags.getLsbD j && !s.params.r1ModeMask.getLsbD j)) ∧
        y = (txt.setWidth 8 <<< s.params.colorTextShift.val) ||| (bg.setWidth 8 <<< s.params.colorBgShift.val) ∧
        exec (.initDevice md flags txt bg) s =
          .next (done 0
            { afterPairs { s with r1mir := x, colmir := y } (modePairs s.params m x y s.tbase) with curMode := m })) ∧
    (Quiet s → ∀ md : BitVec 3, gReady s = false ∨ 4 ≤ md.toNat →
      exec (.initDevice md flags txt bg) s = .next (noopDone false s))

/-- R161: each base is sent shifted right by its scale, its low bits dropped, and always fits the register. -/
def Obligations.ScaledBasesFitTheirRegisters : Prop :=
  ∀ b : TableBases,
    (scaled b .name).toNat = b.name.toNat / 2 ^ 10 ∧ (scaled b .name).toNat ≤ 0x0F ∧
    (scaled b .colour).toNat = b.colour.toNat / 2 ^ 6 ∧ (scaled b .colour).toNat ≤ 0xFF ∧
    (scaled b .pattern).toNat = b.pattern.toNat / 2 ^ 11 ∧ (scaled b .pattern).toNat ≤ 0x07 ∧
    (scaled b .spriteAttribute).toNat = b.spriteAttribute.toNat / 2 ^ 7 ∧ (scaled b .spriteAttribute).toNat ≤ 0x7F ∧
    (scaled b .spritePattern).toNat = b.spritePattern.toNat / 2 ^ 11 ∧ (scaled b .spritePattern).toNat ≤ 0x07

/-- R111: every command from the idle bus, and every step from a state of the machine invariant, whatever lands meanwhile,
emits nothing but data frames, framing pairs whose second byte is a register tag or an upper address byte, and at most one
status frame, as its last frame. Once the ports are initialised the VDP sees exactly the frames emitted. Before that the
adapter emits none, and the VDP can see one of INIT_PORTS, the end of a pulse the host had begun: a frame by R132, and the
model's reading is that it is not one the adapter emits (log 10). -/
def Obligations.OnlyLegalFramesAreEmitted : Prop :=
  (∀ i s t, Ready s → exec i s = .next t → seenFrames s t = emittedFrames s t ∧ LegalFrames (emittedFrames s t)) ∧
  ∀ s t, MachineInv s → step s = .next t →
    LegalFrames (emittedFrames s t) ∧
      (s.portsInit = true → seenFrames s t = emittedFrames s t) ∧
      (s.portsInit = false →
        emittedFrames s t = [] ∧ seenFrames s t = if t.portsInit = true then hostPulse s else [])

/-! ## Setters -/

/-- R241: SET_BLANK writes the blank bit so that "blanked" equals its operand under either polarity, and sends register 1
with the current mode's bits. -/
def Obligations.SetBlankMeansBlanked : Prop :=
  ∀ s b,
    (Ready s → ∃ x : Byte,
      exec (.setBlank b) s = .next (done 0 (afterPair { s with r1mir := x } (registerPair 1 (setterByte s x)))) ∧
        (x.getLsbD s.params.r1BlankBit.val = if s.blankPol = .setMeansBlanked then b else !b) ∧
        (∀ j < 8, j ≠ s.params.r1BlankBit.val → x.getLsbD j = s.r1mir.getLsbD j) ∧
        blanked s.params s.blankPol x = b) ∧
    (Quiet s → gReady s = false → exec (.setBlank b) s = .next (noopDone false s))

/-- R242: SET_IRQ_ENABLE writes the irq-enable bit of the mirror and sends register 1. -/
def Obligations.SetIrqEnableWritesItsBit : Prop :=
  ∀ s b,
    (Ready s → ∃ x : Byte,
      exec (.setIrqEnable b) s = .next (done 0 (afterPair { s with r1mir := x } (registerPair 1 (setterByte s x)))) ∧
        x.getLsbD s.params.r1IeBit.val = b ∧
        ∀ j < 8, j ≠ s.params.r1IeBit.val → x.getLsbD j = s.r1mir.getLsbD j) ∧
    (Quiet s → gReady s = false → exec (.setIrqEnable b) s = .next (noopDone false s))

/-- R243, R244: the sprite setters write their bit of the mirror and send register 1. -/
def Obligations.SpriteSettersWriteTheirBits : Prop :=
  ∀ s b,
    (Ready s →
      (∃ x : Byte,
        exec (.setSpriteSize b) s = .next (done 0 (afterPair { s with r1mir := x } (registerPair 1 (setterByte s x)))) ∧
          x.getLsbD s.params.r1SizeBit.val = b ∧
          ∀ j < 8, j ≠ s.params.r1SizeBit.val → x.getLsbD j = s.r1mir.getLsbD j) ∧
      ∃ x : Byte,
        exec (.setSpriteMag b) s = .next (done 0 (afterPair { s with r1mir := x } (registerPair 1 (setterByte s x)))) ∧
          x.getLsbD s.params.r1MagBit.val = b ∧
          ∀ j < 8, j ≠ s.params.r1MagBit.val → x.getLsbD j = s.r1mir.getLsbD j) ∧
    (Quiet s → gReady s = false →
      exec (.setSpriteSize b) s = .next (noopDone false s) ∧ exec (.setSpriteMag b) s = .next (noopDone false s))

/-- R245, R246: the colour setters write their nibble of the colour mirror, keep its other bits, and send register 7. -/
def Obligations.ColourSettersWriteTheirNibbles : Prop :=
  ∀ s c,
    (Ready s →
      (∃ y : Byte, exec (.setTextColor c) s = .next (done 0 (afterPair { s with colmir := y } (y, 0x87#8))) ∧
        y.extractLsb' s.params.colorTextShift.val 4 = c ∧
        ∀ j < 8, (j < s.params.colorTextShift.val ∨ s.params.colorTextShift.val + 4 ≤ j) →
          y.getLsbD j = s.colmir.getLsbD j) ∧
      ∃ y : Byte, exec (.setBgColor c) s = .next (done 0 (afterPair { s with colmir := y } (y, 0x87#8))) ∧
        y.extractLsb' s.params.colorBgShift.val 4 = c ∧
        ∀ j < 8, (j < s.params.colorBgShift.val ∨ s.params.colorBgShift.val + 4 ≤ j) →
          y.getLsbD j = s.colmir.getLsbD j) ∧
    (Quiet s → gReady s = false →
      exec (.setTextColor c) s = .next (noopDone false s) ∧ exec (.setBgColor c) s = .next (noopDone false s))

/-! ## Status read -/

/-- R231, R230, R232: READ_STATUS is one status frame; its byte goes to VDPSTAT and RESULT; DDIR is 0 for it and is left as
it was. Before G_ready it is a no-op. -/
def Obligations.ReadStatusReturnsTheByte : Prop :=
  ∀ s,
    (Ready s →
      exec .readStatus s = .next (done ((afterStatus s).vdpstat.setWidth 16) (afterStatus s)) ∧
        framesFrom s.walk (statusEvents s (afterStatus s).vdpstat) = [⟨.read, true, (afterStatus s).vdpstat⟩]) ∧
    (Quiet s → gReady s = false → exec .readStatus s = .next (noopDone false s))

/-! ## Bulk transfers -/

/-- The six rows of the gate's truth table (R190, R191). -/
def Obligations.GateTruthTable : Prop :=
  ∀ s,
    (s.r1mir.getLsbD s.params.r1IeBit.val = false → gate s = false) ∧
    (s.r1mir.getLsbD s.params.r1IeBit.val = true →
      (s.blankPol = .setMeansDisplay → gate s = s.r1mir.getLsbD s.params.r1BlankBit.val) ∧
      (s.blankPol = .setMeansBlanked → gate s = !s.r1mir.getLsbD s.params.r1BlankBit.val))

/-- R192: unpaced the count is the length, paced it is the lesser of length and budget; R3: whatever the open budget is,
it is between 1 and 65535, so a paced transfer of at least one byte moves at least one. -/
def Obligations.PacedCountIsCappedByTheBudget : Prop :=
  ∀ c : Params, c.Wf → ∀ l : BitVec 16,
    effectiveCount c false l = l ∧ (effectiveCount c true l).toNat = min l.toNat c.budget.toNat ∧
      (1 ≤ l.toNat → 1 ≤ (effectiveCount c true l).toNat) ∧
      (c.budget.toNat < l.toNat → effectiveCount c true l = c.budget)

/-- R194, R198, R199: with the gate closed a BULK_WRITE moves all L bytes, with a delay before every byte but the first, then
reads the status once. -/
def Obligations.UnpacedWriteMovesEveryByte : Prop :=
  ∀ s h l m, Ready s → gate s = false → 1 ≤ l.toNat → 1 ≤ m.toNat →
    exec (.bulkWrite h l m) s = .next (afterWriteBurst false h l m s)

/-- R195, R198, R199: the same for BULK_READ. -/
def Obligations.UnpacedReadMovesEveryByte : Prop :=
  ∀ s h l m, Ready s → gate s = false → 1 ≤ l.toNat → 1 ≤ m.toNat →
    exec (.bulkRead h l m) s = .next (afterReadBurst false h l m s)

/-- R192, R193, R200: with the gate open and the INT pin at the awaited level, one sample, then at most WINDOW_BUDGET bytes
without delays, the status read, and a normal completion. -/
def Obligations.PacedBurstMovesUpToTheBudget : Prop :=
  ∀ s h l m, Ready s → gate s = true → 1 ≤ l.toNat → 1 ≤ m.toNat → intLevel s = s.params.intWaitLevel →
    exec (.bulkWrite h l m) s = .next (afterWriteBurst true h l m (afterIntSample s)) ∧
      exec (.bulkRead h l m) s = .next (afterReadBurst true h l m (afterIntSample s))

/-- R193: with the gate open and the INT pin not at the awaited level, the command stands in its window wait: one sample,
BUSY = 1, WAIT_INT = 1, nothing moved. -/
def Obligations.PacedBurstWaitsForTheLevel : Prop :=
  ∀ s h l m, Ready s → gate s = true → 1 ≤ l.toNat → 1 ≤ m.toNat → intLevel s ≠ s.params.intWaitLevel →
    exec (.bulkWrite h l m) s = .next (waitingState l (writeByte h m) s) ∧
      exec (.bulkRead h l m) s = .next (waitingState l (readByte h m) s) ∧
      (waitingState l (writeByte h m) s).waitInt = true ∧ (waitingState l (readByte h m) s).waitInt = true

/-- R193: a command in its window wait takes one sample a step; at the awaited level the burst runs to its end, at the other
level it goes on waiting. -/
def Obligations.WaitEndsAtTheLevel : Prop :=
  ∀ s h l m, Ready s → s.busy = true → s.p = true →
    (s.todo = waitingOps s l (writeByte h m) →
      (intLevel s = s.params.intWaitLevel → step s = .next (afterWriteBurst true h l m (afterIntSample s))) ∧
      (intLevel s ≠ s.params.intWaitLevel → step s = .next (afterIntSample s))) ∧
    (s.todo = waitingOps s l (readByte h m) →
      (intLevel s = s.params.intWaitLevel → step s = .next (afterReadBurst true h l m (afterIntSample s))) ∧
      (intLevel s ≠ s.params.intWaitLevel → step s = .next (afterIntSample s)))

/-- R324, R193: while the INT pin does not show the awaited level the command never completes: for any number of steps
BUSY = 1, WAIT_INT = 1, and the trace grows by samples alone. -/
def Obligations.WindowWaitHasNoTimeout : Prop :=
  ∀ k s, MachineInv s → s.waitInt = true → s.inputs = [] → s.vdp = none →
    s.intScript = List.replicate k (!s.params.intWaitLevel) →
    ∃ t, Sys2Proof.core.run k s = .next t ∧
      { t with trace := s.trace, intScript := s.intScript, draws := s.draws } = s ∧ t.busy = true ∧ t.waitInt = true ∧
      t.trace = List.replicate k (.sampI (!s.params.intWaitLevel)) ++ s.trace

/-- R196: data frame k (0 <= k < N) of a BULK_WRITE carries `HOSTMEM[(H + (k mod M)) mod 2^16]`, then comes one status
frame; N is the effective count (R192), for an unpaced burst, a paced one that finds the level at once, and one that goes
on after its window wait. -/
def Obligations.BulkWriteReplaysThePattern : Prop :=
  ∀ s h l m paced o, Ready s → 1 ≤ l.toNat → 1 ≤ m.toNat → BurstRuns (.bulkWrite h l m) l (writeByte h m) paced s o →
    ∃ t, o = .next t ∧ t.result = count s paced l ∧ t.hostmem = s.hostmem ∧
      seenFrames s t =
        (List.range t.result.toNat).map
            (fun k => ⟨.write, false, s.hostmem.hostRead (BitVec.ofNat 16 (h.toNat + k % m.toNat))⟩) ++
          [⟨.read, true, t.vdpstat⟩]

/-- R197: after a BULK_READ each byte j below min(M, N) holds the byte of the last data frame k < N with `k mod M = j`, and
no other byte of HOSTMEM has changed; N is the effective count (R192), for an unpaced burst, a paced one that finds the
level at once, and one that goes on after its window wait. That the last frame wins is the spec's own reading (D27). -/
def Obligations.BulkReadCapturesTheLastFrames : Prop :=
  ∀ s h l m paced o, Ready s → 1 ≤ l.toNat → 1 ≤ m.toNat → BurstRuns (.bulkRead h l m) l (readByte h m) paced s o →
    ∃ t, o = .next t ∧ t.result = count s paced l ∧
      (∀ j < min m.toNat t.result.toNat, ∃ k < t.result.toNat, k % m.toNat = j ∧ t.result.toNat ≤ k + m.toNat ∧
        (seenFrames s t)[k]? =
          some ⟨.read, false, t.hostmem.hostRead (BitVec.ofNat 16 (h.toNat + j))⟩) ∧
      ∀ a : HostAddr, (∀ j < min m.toNat t.result.toNat, a ≠ BitVec.ofNat 16 (h.toNat + j)) →
        t.hostmem.hostRead a = s.hostmem.hostRead a

/-- R331: the number of events of each command is fixed: none for NOP, CFG_PINS, SET_TABLE_BASE and CLEAR_FLAGS, 7 for
INIT_PORTS (R137) and for a status read, 8 for each framing pair (a setter, a register write and an address have one,
SET_MODE and INIT_DEVICE 8, or 5 in Text), 4N + (N - 1) + 7 for an unpaced burst, w + 4N + 7 for a paced one, w being the
number of its INT samples: 1 if the level is there at once, and at least 1 however many steps it waits. -/
def Obligations.EventCountsAreFixed : Prop :=
  (∀ i s t, Quiet s → i.opcode ∈ [0x00#8, 0x01#8, 0x10#8, 0x11#8] → exec i s = .next t → newEvents s t = []) ∧
  (∀ s t, Quiet s → s.configured = true → exec .initPorts s = .next t → (newEvents s t).length = 7) ∧
  ∀ s, Ready s →
    (∀ i t, i.opcode ∈ [0x05#8, 0x06#8, 0x07#8, 0x08#8, 0x09#8, 0x0A#8, 0x0C#8] → exec i s = .next t →
      (newEvents s t).length = 8) ∧
    (∀ idx val t, idx.toNat ≤ 7 → exec (.setRegRaw idx val) s = .next t → (newEvents s t).length = 8) ∧
    (∀ t, exec .readStatus s = .next t → (newEvents s t).length = 7) ∧
    (∀ md flags txt bg t, md.toNat ≤ 3 →
      exec (.setMode md) s = .next t ∨ exec (.initDevice md flags txt bg) s = .next t →
      (newEvents s t).length = if md = 3 then 5 * 8 else 8 * 8) ∧
    ∀ h l m u, 1 ≤ l.toNat → 1 ≤ m.toNat → exec (.bulkWrite h l m) s = .next u ∨ exec (.bulkRead h l m) s = .next u →
      (gate s = false → (newEvents s u).length = 4 * l.toNat + (l.toNat - 1) + 7) ∧
      (gate s = true → intLevel s = s.params.intWaitLevel →
        (newEvents s u).length = 1 + 4 * (min l.toNat s.params.budget.toNat) + 7) ∧
      (gate s = true → s.inputs = [] → ∀ k t, Sys2Proof.core.run k u = .next t → t.busy = false →
        1 ≤ ((newEvents s t).filter isIntSample).length ∧
          (newEvents s t).length =
            ((newEvents s t).filter isIntSample).length + 4 * (min l.toNat s.params.budget.toNat) + 7)

/-- R312, R313: in each of the three cases there is a continuation, with the arguments R313 gives; in no other case does the
function answer (log 13). Its VRAM start is `(a + N) mod 2^14`, its length is the rest, its arguments are legal, and its
byte k has the host address of byte N + k of the whole transfer. -/
def Obligations.ContinuationCarriesThePattern : Prop :=
  ∀ (x : Transfer) (n : BitVec 16), 1 ≤ x.m.toNat → n.toNat < x.l.toNat →
    (x.m = 1 → ∃ a, x.continue? n = some ⟨a, x.h, x.l - n, 1⟩) ∧
    (x.l.toNat ≤ x.m.toNat → ∃ a, x.continue? n = some ⟨a, x.h + n, x.l - n, x.m - n⟩) ∧
    (n.toNat % x.m.toNat = 0 → ∃ a, x.continue? n = some ⟨a, x.h, x.l - n, x.m⟩) ∧
    (x.m ≠ 1 → x.m.toNat < x.l.toNat → n.toNat % x.m.toNat ≠ 0 → x.continue? n = none) ∧
    ∀ y, x.continue? n = some y →
      y.a.toNat = (x.a.toNat + n.toNat) % 2 ^ 14 ∧ y.l.toNat = x.l.toNat - n.toNat ∧ 1 ≤ y.m.toNat ∧
        ∀ k < y.l.toNat, hostAddress y.h y.m (BitVec.ofNat 16 k) = hostAddress x.h x.m (BitVec.ofNat 16 (n.toNat + k))

/-! ## Memory and the reference VDP -/

/-- R61, R74, R317. HOSTMEM returns the byte last written, and a write changes no other byte. A host read of it changes
nothing; with BUSY = 0 it gives the byte HOSTMEM holds. The adapter does not lock it: the host's own writes land at any time,
and a byte the adapter reads is the one HOSTMEM holds at that HRd event. While a command runs a host read may be old or new:
new is what HOSTMEM holds, the command's writes among it; old is without them. After byte j of a BULK_READ: as its j bytes
left HOSTMEM, or as it was at the start. How a host read says which is the model's choice (log 15). -/
def Obligations.HostMemoryReadsBackWrites : Prop :=
  (∀ (m : Memory) (a b : HostAddr) (v : Byte), (m.hostWrite a v).hostRead b = if b = a then v else m.hostRead b) ∧
  (∀ s a old,
    landInput (.memRead a old) s = { s with memReads := (a, hostMemByte a old s) :: s.memReads } ∧
    (s.busy = false → hostMemByte a old s = s.hostmem.hostRead a) ∧
    (∀ w, hostMemByte a old (acceptCommand w s) = s.hostmem.hostRead a) ∧
    ∀ b v, hostMemByte a old (landInput (.memWrite b v) s) = if a = b then v else hostMemByte a old s) ∧
  (∀ (s : State) (h m : BitVec 16),
    perform (.hostRead h m) s =
      { s with
        latch := s.hostmem.hostRead (hostAddress h m s.i)
        trace := .hrd (hostAddress h m s.i) (s.hostmem.hostRead (hostAddress h m s.i)) :: s.trace } ∧
    (s.busy = true → ∀ a,
      hostMemByte a true (perform (.hostWrite h m) s) = hostMemByte a true s ∧
      hostMemByte a false (perform (.hostWrite h m) s) =
        if a = hostAddress h m s.i then s.latch else hostMemByte a false s)) ∧
  ∀ (s : State) h l m j a old, Ready s → gate s = false → s.hostmemBefore = s.hostmem → 1 ≤ m.toNat → 1 ≤ j → j ≤ l.toNat →
    ∃ t, exec (.bulkRead h l m) { s with inputs := List.replicate (6 * j + 1) .advance ++ [.memRead a old] } = .next t ∧
      t.memReads = (a, (if old then s.hostmem else (afterReadBytes false h m j s).hostmem).hostRead a) :: s.memReads

/-- R77-R79: from FF = 0 the reference VDP takes a register pair as one register write and an address pair as its cursor
and direction, and nothing else of it changes. -/
def Obligations.ReferenceVdpTakesFramingPairs : Prop :=
  ∀ v : RefVdp, v.ff = false →
    (∀ (i : Fin 8) b,
      (v.writeFrame true b).writeFrame true (0x80#8 ||| BitVec.ofNat 8 i.val) =
        { v with latch := b, vreg := v.vreg.set i.val b }) ∧
    ∀ a rd,
      (v.writeFrame true (addressPair a rd).1).writeFrame true (addressPair a rd).2 =
        { v with latch := (addressPair a rd).1, cursor := some a, dirn := some rd }

/-- R80, R196: a BULK_WRITE to a reference VDP whose cursor is set up for writing stores byte k < N at the cursor plus k, and
leaves every other VRAM byte, and every register, alone; N is the effective count, unpaced, paced, or after the window
wait. The status read at its end makes the cursor unknown, which is the spec's own conservative reading (R82, D39). -/
def Obligations.BulkWriteFillsVideoMemory : Prop :=
  ∀ s h l m paced o v (c : VramAddr), Ready s → 1 ≤ l.toNat → 1 ≤ m.toNat →
    BurstRuns (.bulkWrite h l m) l (writeByte h m) paced s o →
    s.vdp = some v → v.cursor = some c → v.dirn = some .forWrite →
    ∃ t u, o = .next t ∧ t.result = count s paced l ∧ t.vdp = some u ∧ u.vreg = v.vreg ∧ u.cursor = none ∧
      (∀ k < t.result.toNat, t.result.toNat ≤ k + 2 ^ 14 →
        u.vram.read? ((c.toNat + k) % 2 ^ 14) =
          some (s.hostmem.hostRead (BitVec.ofNat 16 (h.toNat + k % m.toNat)))) ∧
      ∀ x, (∀ k < t.result.toNat, x ≠ (c.toNat + k) % 2 ^ 14) → u.vram.read? x = v.vram.read? x

/-- R81, R197, R201: on a board that isolates DOUT and does not share the port, a BULK_READ from a reference VDP whose cursor
is set up for reading stores the VRAM bytes at the cursor; VRAM itself does not change. N is the effective count, unpaced,
paced, or after the window wait; that the last frame of a place wins is the spec's own reading (D27). -/
def Obligations.BulkReadCopiesVideoMemory : Prop :=
  ∀ s h l m paced o v (c : VramAddr), Ready s → 1 ≤ l.toNat → 1 ≤ m.toNat →
    BurstRuns (.bulkRead h l m) l (readByte h m) paced s o →
    s.vdp = some v → v.isolated = true → s.dshared = false → v.cursor = some c → v.dirn = some .forRead →
    ∃ t u, o = .next t ∧ t.result = count s paced l ∧ t.vdp = some u ∧ u.vram = v.vram ∧ u.vreg = v.vreg ∧
      ∀ k < t.result.toNat, t.result.toNat ≤ k + m.toNat → ∀ b, v.vram.read? ((c.toNat + k) % 2 ^ 14) = some b →
        t.hostmem.hostRead (BitVec.ofNat 16 (h.toNat + k % m.toNat)) = b

/-! ## The host read map -/

/-- R40: the bits of STATUS. -/
def Obligations.StatusBitsFollowTheTable : Prop :=
  ∀ s : State,
    s.status.getLsbD 0 = s.busy ∧ s.status.getLsbD 1 = s.configured ∧ s.status.getLsbD 2 = s.portsInit ∧
    s.status.getLsbD 3 = s.waitInt ∧ s.status.getLsbD 4 = s.partialFlag ∧ s.status.getLsbD 5 = s.ovr ∧
    s.status.getLsbD 6 = s.ill ∧ s.status.getLsbD 7 = s.noopFlag ∧ s.status.getLsbD 8 = s.pacedFlag ∧
    s.status.extractLsb' 9 3 =
      (match s.curMode with
        | .graphicsI => 0#3
        | .graphicsII => 1#3
        | .bitmap => 2#3
        | .text => 3#3
        | .uninitialized => 4#3) ∧
    s.status.extractLsb' 12 4 = 0#4

/-- R48: each index of the read map gives its register, zero-extended, and reading changes nothing. -/
def Obligations.HostReadMapGivesTheRegisters : Prop :=
  ∀ s : State,
    (hostRead s 0x0).toNat = s.status.toNat ∧ (hostRead s 0x1).toNat = s.result.toNat ∧
    (hostRead s 0x2).toNat = s.vdpstat.toNat ∧ (hostRead s 0x3).toNat = s.r1mir.toNat ∧
    (hostRead s 0x4).toNat = s.colmir.toNat ∧ (hostRead s 0x5).toNat = s.tbase.name.toNat ∧
    (hostRead s 0x6).toNat = s.tbase.colour.toNat ∧ (hostRead s 0x7).toNat = s.tbase.pattern.toNat ∧
    (hostRead s 0x8).toNat = s.tbase.spriteAttribute.toNat ∧ (hostRead s 0x9).toNat = s.tbase.spritePattern.toNat ∧
    ((hostRead s 0xA).extractLsb' 0 4 = s.idxCsr ∧ (hostRead s 0xA).extractLsb' 4 4 = s.idxCsw ∧
      (hostRead s 0xA).extractLsb' 8 4 = s.idxMode ∧ (hostRead s 0xA).extractLsb' 12 4 = s.idxReset ∧
      (hostRead s 0xA).extractLsb' 16 4 = s.idxInt ∧ (hostRead s 0xA).extractLsb' 20 8 = 0 ∧
      ((hostRead s 0xA).getLsbD 28 = true ↔ s.seqVariant = .modeAfterStrobe) ∧
      ((hostRead s 0xA).getLsbD 29 = true ↔ s.blankPol = .setMeansBlanked) ∧
      (hostRead s 0xA).getLsbD 30 = s.dshared ∧ (hostRead s 0xA).getLsbD 31 = s.configured) ∧
    (hostRead s 0xB).toNat = s.ctrlOut.toNat ∧ (hostRead s 0xC).toNat = s.ctrlDir.toNat ∧
    (hostRead s 0xD).toNat = s.dout.toNat ∧ (hostRead s 0xE).toNat = s.ddir.toNat ∧
    (hostRead s 0xF).toNat = s.intDir.toNat ∧
    ∀ index, { landInput (.read index) s with reads := s.reads } = s

/-! ## Reset -/

/-- R49: every piece of adapter state the table of R49 gives a value holds it after reset and while ARST is asserted. -/
def Obligations.ResetLeavesTheTableOfValues : Prop :=
  ∀ s, ∀ t ∈ [State.reset, landInput (.arst true) s],
    t.busy = false ∧ t.configured = false ∧ t.idxCsr = 0 ∧ t.idxCsw = 0 ∧ t.idxMode = 0 ∧ t.idxReset = 0 ∧
    t.idxInt = 0 ∧ t.seqVariant = .modeFirst ∧ t.blankPol = .setMeansDisplay ∧ t.dshared = false ∧
    t.portsInit = false ∧ t.ctrlOut = 0x00 ∧ t.ctrlDir = 0x00 ∧ t.dout = 0x00 ∧ t.ddir = 0x00 ∧ t.intDir = 0x00 ∧
    t.curMode = .uninitialized ∧ t.r1mir = 0x00 ∧ t.colmir = 0x00 ∧ t.tbase = ⟨0, 0, 0, 0, 0⟩ ∧ t.result = 0x0000 ∧
    t.vdpstat = 0x00 ∧ t.ovr = false ∧ t.ill = false ∧ t.noopFlag = false ∧ t.partialFlag = false ∧
    t.pacedFlag = false ∧ t.waitInt = false

/-- R301: reset ends a command at any point, without `finish` or `noop`: in its window wait, or before any step of its
pseudocode, and every command is a list of such steps. The adapter's state is the reset state, a new trace begins, and
HOSTMEM is as the steps before left it: a BULK_READ that is aborted after j bytes has stored those j. `heldInReset` gives
the registers that R49 calls don't care the values of State.reset: there the model's choice (log 2). -/
def Obligations.ResetAbortsTheRunningCommand : Prop :=
  (∀ s op rest l, s.busy = true → s.arst = false → s.todo = op :: rest → s.inputs = .arst true :: l →
    ∃ t, step s = .next t ∧ t = heldInReset t ∧ t.hostmem = s.hostmem ∧ t.inputs = l ∧ t.trace = []) ∧
  (∀ s pre op rest l, s.arst = false → MicroOp.windowWait ∉ pre →
    ∃ t, runOps (pre ++ op :: rest) { s with inputs := List.replicate pre.length .advance ++ .arst true :: l } = t ∧
      t = heldInReset t ∧ t.hostmem = (pre.foldl (fun u x => perform x u) s).hostmem ∧ t.inputs = l ∧ t.trace = []) ∧
  (∀ i (s : State), ∃ ops, ∀ l, exec i { s with inputs := l } = .next (runOps ops { s with inputs := l, busy := true })) ∧
  (∀ s h l m j rest, Ready s → gate s = false → 1 ≤ m.toNat → 1 ≤ j → j ≤ l.toNat →
    ∃ t, exec (.bulkRead h l m) { s with inputs := List.replicate (6 * j + 1) .advance ++ .arst true :: rest } = .next t ∧
      t = heldInReset t ∧ t.hostmem = (afterReadBytes false h m j s).hostmem ∧ t.inputs = rest ∧ t.trace = []) ∧
  ∀ s t, s.arst = false → step s = .next t → t.arst = true → t = heldInReset t

/-- R300: a word written while ARST is asserted is discarded and OVR is not set; on release the adapter is idle. -/
def Obligations.HeldInResetNoCommandIsAccepted : Prop :=
  ∀ s l, s.arst = true →
    (∀ w, s.inputs = .command w :: l → step s = .next { s with inputs := l }) ∧
    (s.inputs = .arst false :: l → step s = .next { s with inputs := l, arst := false }) ∧
    (MachineInv s → s.busy = false ∧ s.ovr = false)

/-! ## The whole machine -/

/-- Every step keeps the machine invariant (R7, R25, R46, R52, R125, R139, R300): from any state that has it, whatever the host
does. -/
def Obligations.StepKeepsTheMachineInvariant : Prop := ∀ s t, MachineInv s → step s = .next t → MachineInv t

/-- The invariant holds after reset. -/
def Obligations.ResetStateHasTheMachineInvariant : Prop := MachineInv State.reset

/-- R24-R27: the pin roles, the strategy bits, CONFIGURED and PORTS_INIT, once set, stay until reset. -/
def Obligations.ConfigurationHoldsUntilReset : Prop :=
  ∀ s t, MachineInv s → step s = .next t → s.configured = true →
    t = heldInReset t ∨
      (t.configured = true ∧ t.idxCsr = s.idxCsr ∧ t.idxCsw = s.idxCsw ∧ t.idxMode = s.idxMode ∧
        t.idxReset = s.idxReset ∧ t.idxInt = s.idxInt ∧ t.seqVariant = s.seqVariant ∧ t.blankPol = s.blankPol ∧
        t.dshared = s.dshared ∧ (s.portsInit = true → t.portsInit = true))

/-- R41, R42: OVR and ILL are sticky: only CLEAR_FLAGS and reset clear them. -/
def Obligations.StickyFlagsHoldUntilCleared : Prop :=
  ∀ s t, MachineInv s → step s = .next t →
    (∃ w rest, s.busy = false ∧ s.inputs = .command w :: rest ∧ bits w 63 56 = 0x11) ∨ t = heldInReset t ∨
      ((s.ovr = true → t.ovr = true) ∧ (s.ill = true → t.ill = true))

/-- R34-R37: CURMODE, R1MIR, COLMIR and TBASE change only in a step that accepts one of the commands that name them, or by
reset. -/
def Obligations.DeviceStateChangesOnlyByItsCommands : Prop :=
  ∀ s t, MachineInv s → step s = .next t → t = heldInReset t ∨
    (s.busy = true → t.curMode = s.curMode ∧ t.r1mir = s.r1mir ∧ t.colmir = s.colmir ∧ t.tbase = s.tbase) ∧
      (t.curMode ≠ s.curMode → ∃ w rest, s.inputs = .command w :: rest ∧ bits w 63 56 ∈ [0x03, 0x04]) ∧
      (t.r1mir ≠ s.r1mir → ∃ w rest, s.inputs = .command w :: rest ∧ bits w 63 56 ∈ [0x03, 0x05, 0x06, 0x07, 0x08]) ∧
      (t.colmir ≠ s.colmir → ∃ w rest, s.inputs = .command w :: rest ∧ bits w 63 56 ∈ [0x03, 0x09, 0x0A]) ∧
      (t.tbase ≠ s.tbase → ∃ w rest, s.inputs = .command w :: rest ∧ bits w 63 56 ∈ [0x10])

/-- Which commands may change which state, for every command in every state in which nothing interrupts it; a command
without a result leaves RESULT = 0 (R38). -/
def Obligations.OnlyTheNamedCommandsWrite : Prop :=
  ∀ i s t, Quiet s → exec i s = .next t →
    (t.params = s.params ∧ t.cw = s.cw ∧ t.arst = false ∧ t.inputs = s.inputs ∧ t.reads = s.reads ∧
      t.memReads = s.memReads ∧ t.hostmemBefore = s.hostmemBefore) ∧
    (i.opcode ≠ 0x01 →
      t.configured = s.configured ∧ t.idxCsr = s.idxCsr ∧ t.idxCsw = s.idxCsw ∧ t.idxMode = s.idxMode ∧
        t.idxReset = s.idxReset ∧ t.idxInt = s.idxInt ∧ t.seqVariant = s.seqVariant ∧ t.blankPol = s.blankPol ∧
        t.dshared = s.dshared) ∧
    (i.opcode ≠ 0x02 → t.portsInit = s.portsInit ∧ t.ctrlDir = s.ctrlDir ∧ t.intDir = s.intDir ∧ t.ddir = s.ddir) ∧
    (i.opcode ∉ [0x03#8, 0x04#8] → t.curMode = s.curMode) ∧
    (i.opcode ∉ [0x03#8, 0x05#8, 0x06#8, 0x07#8, 0x08#8] → t.r1mir = s.r1mir) ∧
    (i.opcode ∉ [0x03#8, 0x09#8, 0x0A#8] → t.colmir = s.colmir) ∧
    (i.opcode ≠ 0x10 → t.tbase = s.tbase) ∧
    (i.opcode ∉ [0x0D#8, 0x0E#8, 0x0F#8] → t.result = 0 ∧ t.vdpstat = s.vdpstat ∧ t.draws = s.draws) ∧
    (i.opcode ∉ [0x0D#8, 0x0E#8] → t.partialFlag = s.partialFlag ∧ t.pacedFlag = s.pacedFlag ∧ t.waitInt = s.waitInt) ∧
    (i.opcode ≠ 0x0E → t.hostmem = s.hostmem) ∧
    (i.opcode ≠ 0x11 → t.ovr = s.ovr ∧ t.ill = s.ill) ∧
    (i.opcode ∈ [0x00#8, 0x01#8, 0x10#8, 0x11#8] → t.trace = s.trace ∧ t.vdp = s.vdp ∧ t.ctrlOut = s.ctrlOut ∧ t.dout = s.dout)

/-! ## What the reference VDP does by itself -/

/-- R82, R83, R84 in the reference VDP. A status frame clears FF and the interrupt flag and makes the cursor unknown (the
spec's own reading, D39), and its byte is any value; READ_STATUS does that to an attached one. The INT pin is 0 exactly
with the flag and the irq-enable bit of register 1 set; the environment sets the flag, and no other frame clears it. After
a data frame with the cursor unknown, or against the direction, nothing is promised: that the model then forgets all of
VRAM and the cursor is its choice (log 6). -/
def Obligations.ReferenceVdpInterruptAndUndefinedAccess : Prop :=
  ∀ v : RefVdp,
    (v.readFrame true = { v with ff := false, intFlag := false, cursor := none } ∧ v.answer true = none) ∧
    (∀ s, Ready s → s.vdp = some v → ∃ t, exec .readStatus s = .next t ∧ t.vdp = some (v.readFrame true)) ∧
    (∀ c : Params, v.intLevel c = false ↔ v.intFlag = true ∧ (v.vreg[1]).getLsbD c.r1IeBit.val = true) ∧
    (∀ s, s.vdp = some v →
      intLevel s = v.intLevel s.params ∧ (landInput .vdpInterrupt s).vdp = some { v with intFlag := true }) ∧
    (∀ framing b, (v.writeFrame framing b).intFlag = v.intFlag) ∧ (v.readFrame false).intFlag = v.intFlag ∧
    (∀ b, v.cursor = none ∨ v.dirn ≠ some .forWrite →
      (v.writeFrame false b).cursor = none ∧ ∀ x, (v.writeFrame false b).vram.read? x = none) ∧
    (v.cursor = none ∨ v.dirn ≠ some .forRead →
      v.answer false = none ∧ (v.readFrame false).cursor = none ∧ ∀ x, (v.readFrame false).vram.read? x = none)

end
end

