-- ==== Sys2Proof/Laws/Bits.lean ====
section
/-! SUPPORT. Single bits of port registers: what setting or clearing one bit, and a masked write, do to each bit. -/

namespace Sys2Proof.Machine

/-- The bit written has the level; every other bit is kept (R121, R122). -/
theorem getLsbD_withBit (b : Byte) (k j : Nat) (level : Bool) (hj : j < 8) :
    (withBit b k level).getLsbD j = if j = k then level else b.getLsbD j := by
  unfold withBit
  by_cases hk : j = k
  · subst hk
    cases level <;> simp [hj]
  · have hs : (1#8 <<< k).getLsbD j = false := by
      by_cases hlt : j < k
      · simp [hlt]
      · have : j - k ≠ 0 := by omega
        simp [this]
    cases level
    · simp only [Bool.false_eq_true, ↓reduceIte, BitVec.getLsbD_and, BitVec.getLsbD_not, hs, hk]; simp [hj]
    · simp only [↓reduceIte, BitVec.getLsbD_or, hs, hk]; simp

theorem getLsbD_withBit_same (b : Byte) {k : Nat} (level : Bool) (hk : k < 8) :
    (withBit b k level).getLsbD k = level := by rw [getLsbD_withBit _ _ _ _ hk, if_pos rfl]

theorem getLsbD_withBit_other (b : Byte) {k j : Nat} (level : Bool) (hj : j < 8) (h : j ≠ k) :
    (withBit b k level).getLsbD j = b.getLsbD j := by rw [getLsbD_withBit _ _ _ _ hj, if_neg h]

/-- Two bytes with the same eight bits are equal. -/
theorem byte_ext {x y : Byte} (h : ∀ j, j < 8 → x.getLsbD j = y.getLsbD j) : x = y :=
  BitVec.eq_of_getLsbD_eq fun j hj => h j hj

/-- Writing a bit twice: the last level stands. -/
theorem withBit_withBit (b : Byte) (k : Nat) (x y : Bool) : withBit (withBit b k x) k y = withBit b k y := by
  apply byte_ext
  intro j hj
  simp only [getLsbD_withBit _ _ _ _ hj]
  split <;> rfl

/-- Writes of two different bits commute. -/
theorem withBit_comm (b : Byte) {k l : Nat} (x y : Bool) (h : k ≠ l) :
    withBit (withBit b k x) l y = withBit (withBit b l y) k x := by
  apply byte_ext
  intro j hj
  simp only [getLsbD_withBit _ _ _ _ hj]
  by_cases h1 : j = k <;> by_cases h2 : j = l <;> simp_all

/-- Writing the level a bit already has changes nothing. -/
theorem withBit_self (b : Byte) {k : Nat} {x : Bool} (h : b.getLsbD k = x) : withBit b k x = b := by
  apply byte_ext
  intro j hj
  rw [getLsbD_withBit _ _ _ _ hj]
  split
  · subst_vars; rfl
  · rfl

/-- Each bit of a masked write (R134). -/
theorem getLsbD_maskedWrite (r k v : Byte) (j : Nat) (hj : j < 8) :
    (maskedWrite r k v).getLsbD j = if k.getLsbD j then v.getLsbD j else r.getLsbD j := by
  simp only [maskedWrite, BitVec.getLsbD_or, BitVec.getLsbD_and, BitVec.getLsbD_not, hj, decide_true, Bool.true_and]
  cases k.getLsbD j <;> simp

/-- Each bit of ROLE_MASK once the pins are configured (R47). -/
theorem getLsbD_roleMask (s : State) (hc : s.configured = true) (j : Nat) (hj : j < 8) :
    s.roleMask.getLsbD j =
      (decide (j = s.idxCsr.toNat) || decide (j = s.idxCsw.toNat) || decide (j = s.idxMode.toNat) ||
        decide (j = s.idxReset.toNat)) := by
  have one (k : Nat) : (1#8 <<< k).getLsbD j = decide (j = k) := by
    by_cases hk : j = k
    · subst hk; simp [hj]
    · by_cases hlt : j < k
      · simp [hlt, hk]
      · have : j - k ≠ 0 := by omega
        simp [this, hk]
  simp only [State.roleMask, hc, ↓reduceIte, BitVec.getLsbD_or, one]

/-- Before CFG_PINS the host owns every bit (R47). -/
theorem roleMask_unconfigured (s : State) (hc : s.configured = false) : s.roleMask = 0 := by
  simp [State.roleMask, hc]

end Sys2Proof.Machine
end

