-- ==== Sys2Proof/Laws/State.lean ====
section
/-! SUPPORT. The fields of the state after each named update, one equation per field per update, gathered per update. -/

namespace Sys2Proof.Machine

@[simp] theorem writeCtrl_fields (v : Byte) (s : State) :
    (writeCtrl v s).params = s.params ∧
    (writeCtrl v s).arst = s.arst ∧
    (writeCtrl v s).busy = s.busy ∧
    (writeCtrl v s).cw = s.cw ∧
    (writeCtrl v s).i = s.i ∧
    (writeCtrl v s).n = s.n ∧
    (writeCtrl v s).p = s.p ∧
    (writeCtrl v s).savedDdir = s.savedDdir ∧
    (writeCtrl v s).latch = s.latch ∧
    (writeCtrl v s).todo = s.todo ∧
    (writeCtrl v s).configured = s.configured ∧
    (writeCtrl v s).idxCsr = s.idxCsr ∧
    (writeCtrl v s).idxCsw = s.idxCsw ∧
    (writeCtrl v s).idxMode = s.idxMode ∧
    (writeCtrl v s).idxReset = s.idxReset ∧
    (writeCtrl v s).idxInt = s.idxInt ∧
    (writeCtrl v s).seqVariant = s.seqVariant ∧
    (writeCtrl v s).blankPol = s.blankPol ∧
    (writeCtrl v s).dshared = s.dshared ∧
    (writeCtrl v s).portsInit = s.portsInit ∧
    (writeCtrl v s).ctrlOut = v ∧
    (writeCtrl v s).ctrlDir = s.ctrlDir ∧
    (writeCtrl v s).dout = s.dout ∧
    (writeCtrl v s).ddir = s.ddir ∧
    (writeCtrl v s).intDir = s.intDir ∧
    (writeCtrl v s).curMode = s.curMode ∧
    (writeCtrl v s).r1mir = s.r1mir ∧
    (writeCtrl v s).colmir = s.colmir ∧
    (writeCtrl v s).tbase = s.tbase ∧
    (writeCtrl v s).result = s.result ∧
    (writeCtrl v s).vdpstat = s.vdpstat ∧
    (writeCtrl v s).ovr = s.ovr ∧
    (writeCtrl v s).ill = s.ill ∧
    (writeCtrl v s).noopFlag = s.noopFlag ∧
    (writeCtrl v s).partialFlag = s.partialFlag ∧
    (writeCtrl v s).pacedFlag = s.pacedFlag ∧
    (writeCtrl v s).waitInt = s.waitInt ∧
    (writeCtrl v s).hostmem = s.hostmem ∧
    (writeCtrl v s).hostmemBefore = s.hostmemBefore ∧
    (writeCtrl v s).trace = .ctrl v :: s.trace ∧
    (writeCtrl v s).inputs = s.inputs ∧
    (writeCtrl v s).reads = s.reads ∧
    (writeCtrl v s).memReads = s.memReads ∧
    (writeCtrl v s).dinScript = s.dinScript ∧
    (writeCtrl v s).intScript = s.intScript ∧
    (writeCtrl v s).draws = s.draws ∧
    (writeCtrl v s).vdp = vdpAfter s.walk (.ctrl v) s.vdp := by
  repeat' (first | rfl | constructor)

@[simp] theorem writeCtrlDir_fields (v : Byte) (s : State) :
    (writeCtrlDir v s).params = s.params ∧
    (writeCtrlDir v s).arst = s.arst ∧
    (writeCtrlDir v s).busy = s.busy ∧
    (writeCtrlDir v s).cw = s.cw ∧
    (writeCtrlDir v s).i = s.i ∧
    (writeCtrlDir v s).n = s.n ∧
    (writeCtrlDir v s).p = s.p ∧
    (writeCtrlDir v s).savedDdir = s.savedDdir ∧
    (writeCtrlDir v s).latch = s.latch ∧
    (writeCtrlDir v s).todo = s.todo ∧
    (writeCtrlDir v s).configured = s.configured ∧
    (writeCtrlDir v s).idxCsr = s.idxCsr ∧
    (writeCtrlDir v s).idxCsw = s.idxCsw ∧
    (writeCtrlDir v s).idxMode = s.idxMode ∧
    (writeCtrlDir v s).idxReset = s.idxReset ∧
    (writeCtrlDir v s).idxInt = s.idxInt ∧
    (writeCtrlDir v s).seqVariant = s.seqVariant ∧
    (writeCtrlDir v s).blankPol = s.blankPol ∧
    (writeCtrlDir v s).dshared = s.dshared ∧
    (writeCtrlDir v s).portsInit = s.portsInit ∧
    (writeCtrlDir v s).ctrlOut = s.ctrlOut ∧
    (writeCtrlDir v s).ctrlDir = v ∧
    (writeCtrlDir v s).dout = s.dout ∧
    (writeCtrlDir v s).ddir = s.ddir ∧
    (writeCtrlDir v s).intDir = s.intDir ∧
    (writeCtrlDir v s).curMode = s.curMode ∧
    (writeCtrlDir v s).r1mir = s.r1mir ∧
    (writeCtrlDir v s).colmir = s.colmir ∧
    (writeCtrlDir v s).tbase = s.tbase ∧
    (writeCtrlDir v s).result = s.result ∧
    (writeCtrlDir v s).vdpstat = s.vdpstat ∧
    (writeCtrlDir v s).ovr = s.ovr ∧
    (writeCtrlDir v s).ill = s.ill ∧
    (writeCtrlDir v s).noopFlag = s.noopFlag ∧
    (writeCtrlDir v s).partialFlag = s.partialFlag ∧
    (writeCtrlDir v s).pacedFlag = s.pacedFlag ∧
    (writeCtrlDir v s).waitInt = s.waitInt ∧
    (writeCtrlDir v s).hostmem = s.hostmem ∧
    (writeCtrlDir v s).hostmemBefore = s.hostmemBefore ∧
    (writeCtrlDir v s).trace = .ctrlDir v :: s.trace ∧
    (writeCtrlDir v s).inputs = s.inputs ∧
    (writeCtrlDir v s).reads = s.reads ∧
    (writeCtrlDir v s).memReads = s.memReads ∧
    (writeCtrlDir v s).dinScript = s.dinScript ∧
    (writeCtrlDir v s).intScript = s.intScript ∧
    (writeCtrlDir v s).draws = s.draws ∧
    (writeCtrlDir v s).vdp = s.vdp := by
  repeat' (first | rfl | constructor)

@[simp] theorem writeIntDir_fields (v : Byte) (s : State) :
    (writeIntDir v s).params = s.params ∧
    (writeIntDir v s).arst = s.arst ∧
    (writeIntDir v s).busy = s.busy ∧
    (writeIntDir v s).cw = s.cw ∧
    (writeIntDir v s).i = s.i ∧
    (writeIntDir v s).n = s.n ∧
    (writeIntDir v s).p = s.p ∧
    (writeIntDir v s).savedDdir = s.savedDdir ∧
    (writeIntDir v s).latch = s.latch ∧
    (writeIntDir v s).todo = s.todo ∧
    (writeIntDir v s).configured = s.configured ∧
    (writeIntDir v s).idxCsr = s.idxCsr ∧
    (writeIntDir v s).idxCsw = s.idxCsw ∧
    (writeIntDir v s).idxMode = s.idxMode ∧
    (writeIntDir v s).idxReset = s.idxReset ∧
    (writeIntDir v s).idxInt = s.idxInt ∧
    (writeIntDir v s).seqVariant = s.seqVariant ∧
    (writeIntDir v s).blankPol = s.blankPol ∧
    (writeIntDir v s).dshared = s.dshared ∧
    (writeIntDir v s).portsInit = s.portsInit ∧
    (writeIntDir v s).ctrlOut = s.ctrlOut ∧
    (writeIntDir v s).ctrlDir = s.ctrlDir ∧
    (writeIntDir v s).dout = s.dout ∧
    (writeIntDir v s).ddir = s.ddir ∧
    (writeIntDir v s).intDir = v ∧
    (writeIntDir v s).curMode = s.curMode ∧
    (writeIntDir v s).r1mir = s.r1mir ∧
    (writeIntDir v s).colmir = s.colmir ∧
    (writeIntDir v s).tbase = s.tbase ∧
    (writeIntDir v s).result = s.result ∧
    (writeIntDir v s).vdpstat = s.vdpstat ∧
    (writeIntDir v s).ovr = s.ovr ∧
    (writeIntDir v s).ill = s.ill ∧
    (writeIntDir v s).noopFlag = s.noopFlag ∧
    (writeIntDir v s).partialFlag = s.partialFlag ∧
    (writeIntDir v s).pacedFlag = s.pacedFlag ∧
    (writeIntDir v s).waitInt = s.waitInt ∧
    (writeIntDir v s).hostmem = s.hostmem ∧
    (writeIntDir v s).hostmemBefore = s.hostmemBefore ∧
    (writeIntDir v s).trace = .intDir v :: s.trace ∧
    (writeIntDir v s).inputs = s.inputs ∧
    (writeIntDir v s).reads = s.reads ∧
    (writeIntDir v s).memReads = s.memReads ∧
    (writeIntDir v s).dinScript = s.dinScript ∧
    (writeIntDir v s).intScript = s.intScript ∧
    (writeIntDir v s).draws = s.draws ∧
    (writeIntDir v s).vdp = s.vdp := by
  repeat' (first | rfl | constructor)

@[simp] theorem driveLine_fields (role : Role) (level : Bool) (s : State) :
    (driveLine role level s).params = s.params ∧
    (driveLine role level s).arst = s.arst ∧
    (driveLine role level s).busy = s.busy ∧
    (driveLine role level s).cw = s.cw ∧
    (driveLine role level s).i = s.i ∧
    (driveLine role level s).n = s.n ∧
    (driveLine role level s).p = s.p ∧
    (driveLine role level s).savedDdir = s.savedDdir ∧
    (driveLine role level s).latch = s.latch ∧
    (driveLine role level s).todo = s.todo ∧
    (driveLine role level s).configured = s.configured ∧
    (driveLine role level s).idxCsr = s.idxCsr ∧
    (driveLine role level s).idxCsw = s.idxCsw ∧
    (driveLine role level s).idxMode = s.idxMode ∧
    (driveLine role level s).idxReset = s.idxReset ∧
    (driveLine role level s).idxInt = s.idxInt ∧
    (driveLine role level s).seqVariant = s.seqVariant ∧
    (driveLine role level s).blankPol = s.blankPol ∧
    (driveLine role level s).dshared = s.dshared ∧
    (driveLine role level s).portsInit = s.portsInit ∧
    (driveLine role level s).ctrlOut = withBit s.ctrlOut (s.roleIndex role) level ∧
    (driveLine role level s).ctrlDir = s.ctrlDir ∧
    (driveLine role level s).dout = s.dout ∧
    (driveLine role level s).ddir = s.ddir ∧
    (driveLine role level s).intDir = s.intDir ∧
    (driveLine role level s).curMode = s.curMode ∧
    (driveLine role level s).r1mir = s.r1mir ∧
    (driveLine role level s).colmir = s.colmir ∧
    (driveLine role level s).tbase = s.tbase ∧
    (driveLine role level s).result = s.result ∧
    (driveLine role level s).vdpstat = s.vdpstat ∧
    (driveLine role level s).ovr = s.ovr ∧
    (driveLine role level s).ill = s.ill ∧
    (driveLine role level s).noopFlag = s.noopFlag ∧
    (driveLine role level s).partialFlag = s.partialFlag ∧
    (driveLine role level s).pacedFlag = s.pacedFlag ∧
    (driveLine role level s).waitInt = s.waitInt ∧
    (driveLine role level s).hostmem = s.hostmem ∧
    (driveLine role level s).hostmemBefore = s.hostmemBefore ∧
    (driveLine role level s).trace = .ctrl (withBit s.ctrlOut (s.roleIndex role) level) :: s.trace ∧
    (driveLine role level s).inputs = s.inputs ∧
    (driveLine role level s).reads = s.reads ∧
    (driveLine role level s).memReads = s.memReads ∧
    (driveLine role level s).dinScript = s.dinScript ∧
    (driveLine role level s).intScript = s.intScript ∧
    (driveLine role level s).draws = s.draws ∧
    (driveLine role level s).vdp = vdpAfter s.walk (.ctrl (withBit s.ctrlOut (s.roleIndex role) level)) s.vdp := by
  repeat' (first | rfl | constructor)

@[simp] theorem putData_fields (v : Byte) (s : State) :
    (putData v s).params = s.params ∧
    (putData v s).arst = s.arst ∧
    (putData v s).busy = s.busy ∧
    (putData v s).cw = s.cw ∧
    (putData v s).i = s.i ∧
    (putData v s).n = s.n ∧
    (putData v s).p = s.p ∧
    (putData v s).savedDdir = s.savedDdir ∧
    (putData v s).latch = s.latch ∧
    (putData v s).todo = s.todo ∧
    (putData v s).configured = s.configured ∧
    (putData v s).idxCsr = s.idxCsr ∧
    (putData v s).idxCsw = s.idxCsw ∧
    (putData v s).idxMode = s.idxMode ∧
    (putData v s).idxReset = s.idxReset ∧
    (putData v s).idxInt = s.idxInt ∧
    (putData v s).seqVariant = s.seqVariant ∧
    (putData v s).blankPol = s.blankPol ∧
    (putData v s).dshared = s.dshared ∧
    (putData v s).portsInit = s.portsInit ∧
    (putData v s).ctrlOut = s.ctrlOut ∧
    (putData v s).ctrlDir = s.ctrlDir ∧
    (putData v s).dout = v ∧
    (putData v s).ddir = s.ddir ∧
    (putData v s).intDir = s.intDir ∧
    (putData v s).curMode = s.curMode ∧
    (putData v s).r1mir = s.r1mir ∧
    (putData v s).colmir = s.colmir ∧
    (putData v s).tbase = s.tbase ∧
    (putData v s).result = s.result ∧
    (putData v s).vdpstat = s.vdpstat ∧
    (putData v s).ovr = s.ovr ∧
    (putData v s).ill = s.ill ∧
    (putData v s).noopFlag = s.noopFlag ∧
    (putData v s).partialFlag = s.partialFlag ∧
    (putData v s).pacedFlag = s.pacedFlag ∧
    (putData v s).waitInt = s.waitInt ∧
    (putData v s).hostmem = s.hostmem ∧
    (putData v s).hostmemBefore = s.hostmemBefore ∧
    (putData v s).trace = .data v :: s.trace ∧
    (putData v s).inputs = s.inputs ∧
    (putData v s).reads = s.reads ∧
    (putData v s).memReads = s.memReads ∧
    (putData v s).dinScript = s.dinScript ∧
    (putData v s).intScript = s.intScript ∧
    (putData v s).draws = s.draws ∧
    (putData v s).vdp = s.vdp := by
  repeat' (first | rfl | constructor)

@[simp] theorem setDataDir_fields (d : Byte) (s : State) :
    (setDataDir d s).params = s.params ∧
    (setDataDir d s).arst = s.arst ∧
    (setDataDir d s).busy = s.busy ∧
    (setDataDir d s).cw = s.cw ∧
    (setDataDir d s).i = s.i ∧
    (setDataDir d s).n = s.n ∧
    (setDataDir d s).p = s.p ∧
    (setDataDir d s).savedDdir = s.savedDdir ∧
    (setDataDir d s).latch = s.latch ∧
    (setDataDir d s).todo = s.todo ∧
    (setDataDir d s).configured = s.configured ∧
    (setDataDir d s).idxCsr = s.idxCsr ∧
    (setDataDir d s).idxCsw = s.idxCsw ∧
    (setDataDir d s).idxMode = s.idxMode ∧
    (setDataDir d s).idxReset = s.idxReset ∧
    (setDataDir d s).idxInt = s.idxInt ∧
    (setDataDir d s).seqVariant = s.seqVariant ∧
    (setDataDir d s).blankPol = s.blankPol ∧
    (setDataDir d s).dshared = s.dshared ∧
    (setDataDir d s).portsInit = s.portsInit ∧
    (setDataDir d s).ctrlOut = s.ctrlOut ∧
    (setDataDir d s).ctrlDir = s.ctrlDir ∧
    (setDataDir d s).dout = s.dout ∧
    (setDataDir d s).ddir = d ∧
    (setDataDir d s).intDir = s.intDir ∧
    (setDataDir d s).curMode = s.curMode ∧
    (setDataDir d s).r1mir = s.r1mir ∧
    (setDataDir d s).colmir = s.colmir ∧
    (setDataDir d s).tbase = s.tbase ∧
    (setDataDir d s).result = s.result ∧
    (setDataDir d s).vdpstat = s.vdpstat ∧
    (setDataDir d s).ovr = s.ovr ∧
    (setDataDir d s).ill = s.ill ∧
    (setDataDir d s).noopFlag = s.noopFlag ∧
    (setDataDir d s).partialFlag = s.partialFlag ∧
    (setDataDir d s).pacedFlag = s.pacedFlag ∧
    (setDataDir d s).waitInt = s.waitInt ∧
    (setDataDir d s).hostmem = s.hostmem ∧
    (setDataDir d s).hostmemBefore = s.hostmemBefore ∧
    (setDataDir d s).trace = .ddir d :: s.trace ∧
    (setDataDir d s).inputs = s.inputs ∧
    (setDataDir d s).reads = s.reads ∧
    (setDataDir d s).memReads = s.memReads ∧
    (setDataDir d s).dinScript = s.dinScript ∧
    (setDataDir d s).intScript = s.intScript ∧
    (setDataDir d s).draws = s.draws ∧
    (setDataDir d s).vdp = s.vdp := by
  repeat' (first | rfl | constructor)

@[simp] theorem sampleData_fields (s : State) :
    (sampleData s).params = s.params ∧
    (sampleData s).arst = s.arst ∧
    (sampleData s).busy = s.busy ∧
    (sampleData s).cw = s.cw ∧
    (sampleData s).i = s.i ∧
    (sampleData s).n = s.n ∧
    (sampleData s).p = s.p ∧
    (sampleData s).savedDdir = s.savedDdir ∧
    (sampleData s).latch = dinByte s ∧
    (sampleData s).todo = s.todo ∧
    (sampleData s).configured = s.configured ∧
    (sampleData s).idxCsr = s.idxCsr ∧
    (sampleData s).idxCsw = s.idxCsw ∧
    (sampleData s).idxMode = s.idxMode ∧
    (sampleData s).idxReset = s.idxReset ∧
    (sampleData s).idxInt = s.idxInt ∧
    (sampleData s).seqVariant = s.seqVariant ∧
    (sampleData s).blankPol = s.blankPol ∧
    (sampleData s).dshared = s.dshared ∧
    (sampleData s).portsInit = s.portsInit ∧
    (sampleData s).ctrlOut = s.ctrlOut ∧
    (sampleData s).ctrlDir = s.ctrlDir ∧
    (sampleData s).dout = s.dout ∧
    (sampleData s).ddir = s.ddir ∧
    (sampleData s).intDir = s.intDir ∧
    (sampleData s).curMode = s.curMode ∧
    (sampleData s).r1mir = s.r1mir ∧
    (sampleData s).colmir = s.colmir ∧
    (sampleData s).tbase = s.tbase ∧
    (sampleData s).result = s.result ∧
    (sampleData s).vdpstat = s.vdpstat ∧
    (sampleData s).ovr = s.ovr ∧
    (sampleData s).ill = s.ill ∧
    (sampleData s).noopFlag = s.noopFlag ∧
    (sampleData s).partialFlag = s.partialFlag ∧
    (sampleData s).pacedFlag = s.pacedFlag ∧
    (sampleData s).waitInt = s.waitInt ∧
    (sampleData s).hostmem = s.hostmem ∧
    (sampleData s).hostmemBefore = s.hostmemBefore ∧
    (sampleData s).trace = .sampD (dinByte s) :: s.trace ∧
    (sampleData s).inputs = s.inputs ∧
    (sampleData s).reads = s.reads ∧
    (sampleData s).memReads = s.memReads ∧
    (sampleData s).dinScript = dinScriptAfter s ∧
    (sampleData s).intScript = s.intScript ∧
    (sampleData s).draws = s.draws + 1 ∧
    (sampleData s).vdp = vdpAfter s.walk (.sampD (dinByte s)) s.vdp := by
  repeat' (first | rfl | constructor)

@[simp] theorem pollInt_fields (s : State) :
    (pollInt s).params = s.params ∧
    (pollInt s).arst = s.arst ∧
    (pollInt s).busy = s.busy ∧
    (pollInt s).cw = s.cw ∧
    (pollInt s).i = s.i ∧
    (pollInt s).n = s.n ∧
    (pollInt s).p = s.p ∧
    (pollInt s).savedDdir = s.savedDdir ∧
    (pollInt s).latch = s.latch ∧
    (pollInt s).todo = s.todo ∧
    (pollInt s).configured = s.configured ∧
    (pollInt s).idxCsr = s.idxCsr ∧
    (pollInt s).idxCsw = s.idxCsw ∧
    (pollInt s).idxMode = s.idxMode ∧
    (pollInt s).idxReset = s.idxReset ∧
    (pollInt s).idxInt = s.idxInt ∧
    (pollInt s).seqVariant = s.seqVariant ∧
    (pollInt s).blankPol = s.blankPol ∧
    (pollInt s).dshared = s.dshared ∧
    (pollInt s).portsInit = s.portsInit ∧
    (pollInt s).ctrlOut = s.ctrlOut ∧
    (pollInt s).ctrlDir = s.ctrlDir ∧
    (pollInt s).dout = s.dout ∧
    (pollInt s).ddir = s.ddir ∧
    (pollInt s).intDir = s.intDir ∧
    (pollInt s).curMode = s.curMode ∧
    (pollInt s).r1mir = s.r1mir ∧
    (pollInt s).colmir = s.colmir ∧
    (pollInt s).tbase = s.tbase ∧
    (pollInt s).result = s.result ∧
    (pollInt s).vdpstat = s.vdpstat ∧
    (pollInt s).ovr = s.ovr ∧
    (pollInt s).ill = s.ill ∧
    (pollInt s).noopFlag = s.noopFlag ∧
    (pollInt s).partialFlag = s.partialFlag ∧
    (pollInt s).pacedFlag = s.pacedFlag ∧
    (pollInt s).waitInt = (intLevel s != s.params.intWaitLevel) ∧
    (pollInt s).hostmem = s.hostmem ∧
    (pollInt s).hostmemBefore = s.hostmemBefore ∧
    (pollInt s).trace = .sampI (intLevel s) :: s.trace ∧
    (pollInt s).inputs = s.inputs ∧
    (pollInt s).reads = s.reads ∧
    (pollInt s).memReads = s.memReads ∧
    (pollInt s).dinScript = s.dinScript ∧
    (pollInt s).intScript = (if s.vdp.isSome then s.intScript else s.intScript.tail) ∧
    (pollInt s).draws = s.draws + 1 ∧
    (pollInt s).vdp = s.vdp := by
  repeat' (first | rfl | constructor)

@[simp] theorem delayOp_fields (s : State) :
    (delayOp s).params = s.params ∧
    (delayOp s).arst = s.arst ∧
    (delayOp s).busy = s.busy ∧
    (delayOp s).cw = s.cw ∧
    (delayOp s).i = s.i ∧
    (delayOp s).n = s.n ∧
    (delayOp s).p = s.p ∧
    (delayOp s).savedDdir = s.savedDdir ∧
    (delayOp s).latch = s.latch ∧
    (delayOp s).todo = s.todo ∧
    (delayOp s).configured = s.configured ∧
    (delayOp s).idxCsr = s.idxCsr ∧
    (delayOp s).idxCsw = s.idxCsw ∧
    (delayOp s).idxMode = s.idxMode ∧
    (delayOp s).idxReset = s.idxReset ∧
    (delayOp s).idxInt = s.idxInt ∧
    (delayOp s).seqVariant = s.seqVariant ∧
    (delayOp s).blankPol = s.blankPol ∧
    (delayOp s).dshared = s.dshared ∧
    (delayOp s).portsInit = s.portsInit ∧
    (delayOp s).ctrlOut = s.ctrlOut ∧
    (delayOp s).ctrlDir = s.ctrlDir ∧
    (delayOp s).dout = s.dout ∧
    (delayOp s).ddir = s.ddir ∧
    (delayOp s).intDir = s.intDir ∧
    (delayOp s).curMode = s.curMode ∧
    (delayOp s).r1mir = s.r1mir ∧
    (delayOp s).colmir = s.colmir ∧
    (delayOp s).tbase = s.tbase ∧
    (delayOp s).result = s.result ∧
    (delayOp s).vdpstat = s.vdpstat ∧
    (delayOp s).ovr = s.ovr ∧
    (delayOp s).ill = s.ill ∧
    (delayOp s).noopFlag = s.noopFlag ∧
    (delayOp s).partialFlag = s.partialFlag ∧
    (delayOp s).pacedFlag = s.pacedFlag ∧
    (delayOp s).waitInt = s.waitInt ∧
    (delayOp s).hostmem = s.hostmem ∧
    (delayOp s).hostmemBefore = s.hostmemBefore ∧
    (delayOp s).trace = .delay s.params.delay :: s.trace ∧
    (delayOp s).inputs = s.inputs ∧
    (delayOp s).reads = s.reads ∧
    (delayOp s).memReads = s.memReads ∧
    (delayOp s).dinScript = s.dinScript ∧
    (delayOp s).intScript = s.intScript ∧
    (delayOp s).draws = s.draws ∧
    (delayOp s).vdp = s.vdp := by
  repeat' (first | rfl | constructor)

@[simp] theorem memRead_fields (a : HostAddr) (s : State) :
    (memRead a s).params = s.params ∧
    (memRead a s).arst = s.arst ∧
    (memRead a s).busy = s.busy ∧
    (memRead a s).cw = s.cw ∧
    (memRead a s).i = s.i ∧
    (memRead a s).n = s.n ∧
    (memRead a s).p = s.p ∧
    (memRead a s).savedDdir = s.savedDdir ∧
    (memRead a s).latch = s.hostmem.hostRead a ∧
    (memRead a s).todo = s.todo ∧
    (memRead a s).configured = s.configured ∧
    (memRead a s).idxCsr = s.idxCsr ∧
    (memRead a s).idxCsw = s.idxCsw ∧
    (memRead a s).idxMode = s.idxMode ∧
    (memRead a s).idxReset = s.idxReset ∧
    (memRead a s).idxInt = s.idxInt ∧
    (memRead a s).seqVariant = s.seqVariant ∧
    (memRead a s).blankPol = s.blankPol ∧
    (memRead a s).dshared = s.dshared ∧
    (memRead a s).portsInit = s.portsInit ∧
    (memRead a s).ctrlOut = s.ctrlOut ∧
    (memRead a s).ctrlDir = s.ctrlDir ∧
    (memRead a s).dout = s.dout ∧
    (memRead a s).ddir = s.ddir ∧
    (memRead a s).intDir = s.intDir ∧
    (memRead a s).curMode = s.curMode ∧
    (memRead a s).r1mir = s.r1mir ∧
    (memRead a s).colmir = s.colmir ∧
    (memRead a s).tbase = s.tbase ∧
    (memRead a s).result = s.result ∧
    (memRead a s).vdpstat = s.vdpstat ∧
    (memRead a s).ovr = s.ovr ∧
    (memRead a s).ill = s.ill ∧
    (memRead a s).noopFlag = s.noopFlag ∧
    (memRead a s).partialFlag = s.partialFlag ∧
    (memRead a s).pacedFlag = s.pacedFlag ∧
    (memRead a s).waitInt = s.waitInt ∧
    (memRead a s).hostmem = s.hostmem ∧
    (memRead a s).hostmemBefore = s.hostmemBefore ∧
    (memRead a s).trace = .hrd a (s.hostmem.hostRead a) :: s.trace ∧
    (memRead a s).inputs = s.inputs ∧
    (memRead a s).reads = s.reads ∧
    (memRead a s).memReads = s.memReads ∧
    (memRead a s).dinScript = s.dinScript ∧
    (memRead a s).intScript = s.intScript ∧
    (memRead a s).draws = s.draws ∧
    (memRead a s).vdp = s.vdp := by
  repeat' (first | rfl | constructor)

@[simp] theorem memWrite_fields (a : HostAddr) (s : State) :
    (memWrite a s).params = s.params ∧
    (memWrite a s).arst = s.arst ∧
    (memWrite a s).busy = s.busy ∧
    (memWrite a s).cw = s.cw ∧
    (memWrite a s).i = s.i ∧
    (memWrite a s).n = s.n ∧
    (memWrite a s).p = s.p ∧
    (memWrite a s).savedDdir = s.savedDdir ∧
    (memWrite a s).latch = s.latch ∧
    (memWrite a s).todo = s.todo ∧
    (memWrite a s).configured = s.configured ∧
    (memWrite a s).idxCsr = s.idxCsr ∧
    (memWrite a s).idxCsw = s.idxCsw ∧
    (memWrite a s).idxMode = s.idxMode ∧
    (memWrite a s).idxReset = s.idxReset ∧
    (memWrite a s).idxInt = s.idxInt ∧
    (memWrite a s).seqVariant = s.seqVariant ∧
    (memWrite a s).blankPol = s.blankPol ∧
    (memWrite a s).dshared = s.dshared ∧
    (memWrite a s).portsInit = s.portsInit ∧
    (memWrite a s).ctrlOut = s.ctrlOut ∧
    (memWrite a s).ctrlDir = s.ctrlDir ∧
    (memWrite a s).dout = s.dout ∧
    (memWrite a s).ddir = s.ddir ∧
    (memWrite a s).intDir = s.intDir ∧
    (memWrite a s).curMode = s.curMode ∧
    (memWrite a s).r1mir = s.r1mir ∧
    (memWrite a s).colmir = s.colmir ∧
    (memWrite a s).tbase = s.tbase ∧
    (memWrite a s).result = s.result ∧
    (memWrite a s).vdpstat = s.vdpstat ∧
    (memWrite a s).ovr = s.ovr ∧
    (memWrite a s).ill = s.ill ∧
    (memWrite a s).noopFlag = s.noopFlag ∧
    (memWrite a s).partialFlag = s.partialFlag ∧
    (memWrite a s).pacedFlag = s.pacedFlag ∧
    (memWrite a s).waitInt = s.waitInt ∧
    (memWrite a s).hostmem = s.hostmem.hostWrite a s.latch ∧
    (memWrite a s).hostmemBefore = s.hostmemBefore ∧
    (memWrite a s).trace = .hwr a s.latch :: s.trace ∧
    (memWrite a s).inputs = s.inputs ∧
    (memWrite a s).reads = s.reads ∧
    (memWrite a s).memReads = s.memReads ∧
    (memWrite a s).dinScript = s.dinScript ∧
    (memWrite a s).intScript = s.intScript ∧
    (memWrite a s).draws = s.draws ∧
    (memWrite a s).vdp = s.vdp := by
  repeat' (first | rfl | constructor)

@[simp] theorem finish_fields (r : ResultSource) (s : State) :
    (finish r s).params = s.params ∧
    (finish r s).arst = s.arst ∧
    (finish r s).busy = false ∧
    (finish r s).cw = s.cw ∧
    (finish r s).i = s.i ∧
    (finish r s).n = s.n ∧
    (finish r s).p = s.p ∧
    (finish r s).savedDdir = s.savedDdir ∧
    (finish r s).latch = s.latch ∧
    (finish r s).todo = s.todo ∧
    (finish r s).configured = s.configured ∧
    (finish r s).idxCsr = s.idxCsr ∧
    (finish r s).idxCsw = s.idxCsw ∧
    (finish r s).idxMode = s.idxMode ∧
    (finish r s).idxReset = s.idxReset ∧
    (finish r s).idxInt = s.idxInt ∧
    (finish r s).seqVariant = s.seqVariant ∧
    (finish r s).blankPol = s.blankPol ∧
    (finish r s).dshared = s.dshared ∧
    (finish r s).portsInit = s.portsInit ∧
    (finish r s).ctrlOut = s.ctrlOut ∧
    (finish r s).ctrlDir = s.ctrlDir ∧
    (finish r s).dout = s.dout ∧
    (finish r s).ddir = s.ddir ∧
    (finish r s).intDir = s.intDir ∧
    (finish r s).curMode = s.curMode ∧
    (finish r s).r1mir = s.r1mir ∧
    (finish r s).colmir = s.colmir ∧
    (finish r s).tbase = s.tbase ∧
    (finish r s).result = resultValue s r ∧
    (finish r s).vdpstat = s.vdpstat ∧
    (finish r s).ovr = s.ovr ∧
    (finish r s).ill = s.ill ∧
    (finish r s).noopFlag = false ∧
    (finish r s).partialFlag = s.partialFlag ∧
    (finish r s).pacedFlag = s.pacedFlag ∧
    (finish r s).waitInt = s.waitInt ∧
    (finish r s).hostmem = s.hostmem ∧
    (finish r s).hostmemBefore = s.hostmemBefore ∧
    (finish r s).trace = s.trace ∧
    (finish r s).inputs = s.inputs ∧
    (finish r s).reads = s.reads ∧
    (finish r s).memReads = s.memReads ∧
    (finish r s).dinScript = s.dinScript ∧
    (finish r s).intScript = s.intScript ∧
    (finish r s).draws = s.draws ∧
    (finish r s).vdp = s.vdp := by
  repeat' (first | rfl | constructor)

@[simp] theorem noop_fields (bulk : Bool) (s : State) :
    (noop bulk s).params = s.params ∧
    (noop bulk s).arst = s.arst ∧
    (noop bulk s).busy = false ∧
    (noop bulk s).cw = s.cw ∧
    (noop bulk s).i = s.i ∧
    (noop bulk s).n = s.n ∧
    (noop bulk s).p = s.p ∧
    (noop bulk s).savedDdir = s.savedDdir ∧
    (noop bulk s).latch = s.latch ∧
    (noop bulk s).todo = s.todo ∧
    (noop bulk s).configured = s.configured ∧
    (noop bulk s).idxCsr = s.idxCsr ∧
    (noop bulk s).idxCsw = s.idxCsw ∧
    (noop bulk s).idxMode = s.idxMode ∧
    (noop bulk s).idxReset = s.idxReset ∧
    (noop bulk s).idxInt = s.idxInt ∧
    (noop bulk s).seqVariant = s.seqVariant ∧
    (noop bulk s).blankPol = s.blankPol ∧
    (noop bulk s).dshared = s.dshared ∧
    (noop bulk s).portsInit = s.portsInit ∧
    (noop bulk s).ctrlOut = s.ctrlOut ∧
    (noop bulk s).ctrlDir = s.ctrlDir ∧
    (noop bulk s).dout = s.dout ∧
    (noop bulk s).ddir = s.ddir ∧
    (noop bulk s).intDir = s.intDir ∧
    (noop bulk s).curMode = s.curMode ∧
    (noop bulk s).r1mir = s.r1mir ∧
    (noop bulk s).colmir = s.colmir ∧
    (noop bulk s).tbase = s.tbase ∧
    (noop bulk s).result = 0 ∧
    (noop bulk s).vdpstat = s.vdpstat ∧
    (noop bulk s).ovr = s.ovr ∧
    (noop bulk s).ill = s.ill ∧
    (noop bulk s).noopFlag = true ∧
    (noop bulk s).partialFlag = (if bulk then false else s.partialFlag) ∧
    (noop bulk s).pacedFlag = (if bulk then false else s.pacedFlag) ∧
    (noop bulk s).waitInt = s.waitInt ∧
    (noop bulk s).hostmem = s.hostmem ∧
    (noop bulk s).hostmemBefore = s.hostmemBefore ∧
    (noop bulk s).trace = s.trace ∧
    (noop bulk s).inputs = s.inputs ∧
    (noop bulk s).reads = s.reads ∧
    (noop bulk s).memReads = s.memReads ∧
    (noop bulk s).dinScript = s.dinScript ∧
    (noop bulk s).intScript = s.intScript ∧
    (noop bulk s).draws = s.draws ∧
    (noop bulk s).vdp = s.vdp := by
  repeat' (first | rfl | constructor)

@[simp] theorem acceptCommand_fields (w : CommandWord) (s : State) :
    (acceptCommand w s).params = s.params ∧
    (acceptCommand w s).arst = s.arst ∧
    (acceptCommand w s).busy = true ∧
    (acceptCommand w s).cw = w ∧
    (acceptCommand w s).i = s.i ∧
    (acceptCommand w s).n = s.n ∧
    (acceptCommand w s).p = s.p ∧
    (acceptCommand w s).savedDdir = s.savedDdir ∧
    (acceptCommand w s).latch = s.latch ∧
    (acceptCommand w s).todo = s.todo ∧
    (acceptCommand w s).configured = s.configured ∧
    (acceptCommand w s).idxCsr = s.idxCsr ∧
    (acceptCommand w s).idxCsw = s.idxCsw ∧
    (acceptCommand w s).idxMode = s.idxMode ∧
    (acceptCommand w s).idxReset = s.idxReset ∧
    (acceptCommand w s).idxInt = s.idxInt ∧
    (acceptCommand w s).seqVariant = s.seqVariant ∧
    (acceptCommand w s).blankPol = s.blankPol ∧
    (acceptCommand w s).dshared = s.dshared ∧
    (acceptCommand w s).portsInit = s.portsInit ∧
    (acceptCommand w s).ctrlOut = s.ctrlOut ∧
    (acceptCommand w s).ctrlDir = s.ctrlDir ∧
    (acceptCommand w s).dout = s.dout ∧
    (acceptCommand w s).ddir = s.ddir ∧
    (acceptCommand w s).intDir = s.intDir ∧
    (acceptCommand w s).curMode = s.curMode ∧
    (acceptCommand w s).r1mir = s.r1mir ∧
    (acceptCommand w s).colmir = s.colmir ∧
    (acceptCommand w s).tbase = s.tbase ∧
    (acceptCommand w s).result = s.result ∧
    (acceptCommand w s).vdpstat = s.vdpstat ∧
    (acceptCommand w s).ovr = s.ovr ∧
    (acceptCommand w s).ill = s.ill ∧
    (acceptCommand w s).noopFlag = s.noopFlag ∧
    (acceptCommand w s).partialFlag = s.partialFlag ∧
    (acceptCommand w s).pacedFlag = s.pacedFlag ∧
    (acceptCommand w s).waitInt = s.waitInt ∧
    (acceptCommand w s).hostmem = s.hostmem ∧
    (acceptCommand w s).hostmemBefore = s.hostmem ∧
    (acceptCommand w s).trace = s.trace ∧
    (acceptCommand w s).inputs = s.inputs ∧
    (acceptCommand w s).reads = s.reads ∧
    (acceptCommand w s).memReads = s.memReads ∧
    (acceptCommand w s).dinScript = s.dinScript ∧
    (acceptCommand w s).intScript = s.intScript ∧
    (acceptCommand w s).draws = s.draws ∧
    (acceptCommand w s).vdp = s.vdp := by
  repeat' (first | rfl | constructor)

@[simp] theorem setPin_fields (pin : Pin) (i : BitVec 4) (s : State) :
    (setPin pin i s).params = s.params ∧
    (setPin pin i s).arst = s.arst ∧
    (setPin pin i s).busy = s.busy ∧
    (setPin pin i s).cw = s.cw ∧
    (setPin pin i s).i = s.i ∧
    (setPin pin i s).n = s.n ∧
    (setPin pin i s).p = s.p ∧
    (setPin pin i s).savedDdir = s.savedDdir ∧
    (setPin pin i s).latch = s.latch ∧
    (setPin pin i s).todo = s.todo ∧
    (setPin pin i s).configured = s.configured ∧
    (setPin pin i s).idxCsr = (if pin = .csr then i else s.idxCsr) ∧
    (setPin pin i s).idxCsw = (if pin = .csw then i else s.idxCsw) ∧
    (setPin pin i s).idxMode = (if pin = .mode then i else s.idxMode) ∧
    (setPin pin i s).idxReset = (if pin = .reset then i else s.idxReset) ∧
    (setPin pin i s).idxInt = (if pin = .int then i else s.idxInt) ∧
    (setPin pin i s).seqVariant = s.seqVariant ∧
    (setPin pin i s).blankPol = s.blankPol ∧
    (setPin pin i s).dshared = s.dshared ∧
    (setPin pin i s).portsInit = s.portsInit ∧
    (setPin pin i s).ctrlOut = s.ctrlOut ∧
    (setPin pin i s).ctrlDir = s.ctrlDir ∧
    (setPin pin i s).dout = s.dout ∧
    (setPin pin i s).ddir = s.ddir ∧
    (setPin pin i s).intDir = s.intDir ∧
    (setPin pin i s).curMode = s.curMode ∧
    (setPin pin i s).r1mir = s.r1mir ∧
    (setPin pin i s).colmir = s.colmir ∧
    (setPin pin i s).tbase = s.tbase ∧
    (setPin pin i s).result = s.result ∧
    (setPin pin i s).vdpstat = s.vdpstat ∧
    (setPin pin i s).ovr = s.ovr ∧
    (setPin pin i s).ill = s.ill ∧
    (setPin pin i s).noopFlag = s.noopFlag ∧
    (setPin pin i s).partialFlag = s.partialFlag ∧
    (setPin pin i s).pacedFlag = s.pacedFlag ∧
    (setPin pin i s).waitInt = s.waitInt ∧
    (setPin pin i s).hostmem = s.hostmem ∧
    (setPin pin i s).hostmemBefore = s.hostmemBefore ∧
    (setPin pin i s).trace = s.trace ∧
    (setPin pin i s).inputs = s.inputs ∧
    (setPin pin i s).reads = s.reads ∧
    (setPin pin i s).memReads = s.memReads ∧
    (setPin pin i s).dinScript = s.dinScript ∧
    (setPin pin i s).intScript = s.intScript ∧
    (setPin pin i s).draws = s.draws ∧
    (setPin pin i s).vdp = s.vdp := by
  repeat' (first | rfl | constructor)

@[simp] theorem hostMemWrite_fields (a : HostAddr) (v : Byte) (s : State) :
    (hostMemWrite a v s).params = s.params ∧
    (hostMemWrite a v s).arst = s.arst ∧
    (hostMemWrite a v s).busy = s.busy ∧
    (hostMemWrite a v s).cw = s.cw ∧
    (hostMemWrite a v s).i = s.i ∧
    (hostMemWrite a v s).n = s.n ∧
    (hostMemWrite a v s).p = s.p ∧
    (hostMemWrite a v s).savedDdir = s.savedDdir ∧
    (hostMemWrite a v s).latch = s.latch ∧
    (hostMemWrite a v s).todo = s.todo ∧
    (hostMemWrite a v s).configured = s.configured ∧
    (hostMemWrite a v s).idxCsr = s.idxCsr ∧
    (hostMemWrite a v s).idxCsw = s.idxCsw ∧
    (hostMemWrite a v s).idxMode = s.idxMode ∧
    (hostMemWrite a v s).idxReset = s.idxReset ∧
    (hostMemWrite a v s).idxInt = s.idxInt ∧
    (hostMemWrite a v s).seqVariant = s.seqVariant ∧
    (hostMemWrite a v s).blankPol = s.blankPol ∧
    (hostMemWrite a v s).dshared = s.dshared ∧
    (hostMemWrite a v s).portsInit = s.portsInit ∧
    (hostMemWrite a v s).ctrlOut = s.ctrlOut ∧
    (hostMemWrite a v s).ctrlDir = s.ctrlDir ∧
    (hostMemWrite a v s).dout = s.dout ∧
    (hostMemWrite a v s).ddir = s.ddir ∧
    (hostMemWrite a v s).intDir = s.intDir ∧
    (hostMemWrite a v s).curMode = s.curMode ∧
    (hostMemWrite a v s).r1mir = s.r1mir ∧
    (hostMemWrite a v s).colmir = s.colmir ∧
    (hostMemWrite a v s).tbase = s.tbase ∧
    (hostMemWrite a v s).result = s.result ∧
    (hostMemWrite a v s).vdpstat = s.vdpstat ∧
    (hostMemWrite a v s).ovr = s.ovr ∧
    (hostMemWrite a v s).ill = s.ill ∧
    (hostMemWrite a v s).noopFlag = s.noopFlag ∧
    (hostMemWrite a v s).partialFlag = s.partialFlag ∧
    (hostMemWrite a v s).pacedFlag = s.pacedFlag ∧
    (hostMemWrite a v s).waitInt = s.waitInt ∧
    (hostMemWrite a v s).hostmem = s.hostmem.hostWrite a v ∧
    (hostMemWrite a v s).hostmemBefore = s.hostmemBefore.hostWrite a v ∧
    (hostMemWrite a v s).trace = s.trace ∧
    (hostMemWrite a v s).inputs = s.inputs ∧
    (hostMemWrite a v s).reads = s.reads ∧
    (hostMemWrite a v s).memReads = s.memReads ∧
    (hostMemWrite a v s).dinScript = s.dinScript ∧
    (hostMemWrite a v s).intScript = s.intScript ∧
    (hostMemWrite a v s).draws = s.draws ∧
    (hostMemWrite a v s).vdp = s.vdp := by
  repeat' (first | rfl | constructor)

@[simp] theorem hostMemRead_fields (a : HostAddr) (old : Bool) (s : State) :
    (hostMemRead a old s).params = s.params ∧
    (hostMemRead a old s).arst = s.arst ∧
    (hostMemRead a old s).busy = s.busy ∧
    (hostMemRead a old s).cw = s.cw ∧
    (hostMemRead a old s).i = s.i ∧
    (hostMemRead a old s).n = s.n ∧
    (hostMemRead a old s).p = s.p ∧
    (hostMemRead a old s).savedDdir = s.savedDdir ∧
    (hostMemRead a old s).latch = s.latch ∧
    (hostMemRead a old s).todo = s.todo ∧
    (hostMemRead a old s).configured = s.configured ∧
    (hostMemRead a old s).idxCsr = s.idxCsr ∧
    (hostMemRead a old s).idxCsw = s.idxCsw ∧
    (hostMemRead a old s).idxMode = s.idxMode ∧
    (hostMemRead a old s).idxReset = s.idxReset ∧
    (hostMemRead a old s).idxInt = s.idxInt ∧
    (hostMemRead a old s).seqVariant = s.seqVariant ∧
    (hostMemRead a old s).blankPol = s.blankPol ∧
    (hostMemRead a old s).dshared = s.dshared ∧
    (hostMemRead a old s).portsInit = s.portsInit ∧
    (hostMemRead a old s).ctrlOut = s.ctrlOut ∧
    (hostMemRead a old s).ctrlDir = s.ctrlDir ∧
    (hostMemRead a old s).dout = s.dout ∧
    (hostMemRead a old s).ddir = s.ddir ∧
    (hostMemRead a old s).intDir = s.intDir ∧
    (hostMemRead a old s).curMode = s.curMode ∧
    (hostMemRead a old s).r1mir = s.r1mir ∧
    (hostMemRead a old s).colmir = s.colmir ∧
    (hostMemRead a old s).tbase = s.tbase ∧
    (hostMemRead a old s).result = s.result ∧
    (hostMemRead a old s).vdpstat = s.vdpstat ∧
    (hostMemRead a old s).ovr = s.ovr ∧
    (hostMemRead a old s).ill = s.ill ∧
    (hostMemRead a old s).noopFlag = s.noopFlag ∧
    (hostMemRead a old s).partialFlag = s.partialFlag ∧
    (hostMemRead a old s).pacedFlag = s.pacedFlag ∧
    (hostMemRead a old s).waitInt = s.waitInt ∧
    (hostMemRead a old s).hostmem = s.hostmem ∧
    (hostMemRead a old s).hostmemBefore = s.hostmemBefore ∧
    (hostMemRead a old s).trace = s.trace ∧
    (hostMemRead a old s).inputs = s.inputs ∧
    (hostMemRead a old s).reads = s.reads ∧
    (hostMemRead a old s).memReads = (a, hostMemByte a old s) :: s.memReads ∧
    (hostMemRead a old s).dinScript = s.dinScript ∧
    (hostMemRead a old s).intScript = s.intScript ∧
    (hostMemRead a old s).draws = s.draws ∧
    (hostMemRead a old s).vdp = s.vdp := by
  repeat' (first | rfl | constructor)

@[simp] theorem releaseReset_fields (s : State) :
    (releaseReset s).params = s.params ∧
    (releaseReset s).arst = false ∧
    (releaseReset s).busy = s.busy ∧
    (releaseReset s).cw = s.cw ∧
    (releaseReset s).i = s.i ∧
    (releaseReset s).n = s.n ∧
    (releaseReset s).p = s.p ∧
    (releaseReset s).savedDdir = s.savedDdir ∧
    (releaseReset s).latch = s.latch ∧
    (releaseReset s).todo = s.todo ∧
    (releaseReset s).configured = s.configured ∧
    (releaseReset s).idxCsr = s.idxCsr ∧
    (releaseReset s).idxCsw = s.idxCsw ∧
    (releaseReset s).idxMode = s.idxMode ∧
    (releaseReset s).idxReset = s.idxReset ∧
    (releaseReset s).idxInt = s.idxInt ∧
    (releaseReset s).seqVariant = s.seqVariant ∧
    (releaseReset s).blankPol = s.blankPol ∧
    (releaseReset s).dshared = s.dshared ∧
    (releaseReset s).portsInit = s.portsInit ∧
    (releaseReset s).ctrlOut = s.ctrlOut ∧
    (releaseReset s).ctrlDir = s.ctrlDir ∧
    (releaseReset s).dout = s.dout ∧
    (releaseReset s).ddir = s.ddir ∧
    (releaseReset s).intDir = s.intDir ∧
    (releaseReset s).curMode = s.curMode ∧
    (releaseReset s).r1mir = s.r1mir ∧
    (releaseReset s).colmir = s.colmir ∧
    (releaseReset s).tbase = s.tbase ∧
    (releaseReset s).result = s.result ∧
    (releaseReset s).vdpstat = s.vdpstat ∧
    (releaseReset s).ovr = s.ovr ∧
    (releaseReset s).ill = s.ill ∧
    (releaseReset s).noopFlag = s.noopFlag ∧
    (releaseReset s).partialFlag = s.partialFlag ∧
    (releaseReset s).pacedFlag = s.pacedFlag ∧
    (releaseReset s).waitInt = s.waitInt ∧
    (releaseReset s).hostmem = s.hostmem ∧
    (releaseReset s).hostmemBefore = s.hostmemBefore ∧
    (releaseReset s).trace = s.trace ∧
    (releaseReset s).inputs = s.inputs ∧
    (releaseReset s).reads = s.reads ∧
    (releaseReset s).memReads = s.memReads ∧
    (releaseReset s).dinScript = s.dinScript ∧
    (releaseReset s).intScript = s.intScript ∧
    (releaseReset s).draws = s.draws ∧
    (releaseReset s).vdp = s.vdp := by
  repeat' (first | rfl | constructor)

@[simp] theorem assertReset_fields (s : State) :
    (assertReset s).params = s.params ∧
    (assertReset s).arst = true ∧
    (assertReset s).busy = State.reset.busy ∧
    (assertReset s).cw = State.reset.cw ∧
    (assertReset s).i = State.reset.i ∧
    (assertReset s).n = State.reset.n ∧
    (assertReset s).p = State.reset.p ∧
    (assertReset s).savedDdir = State.reset.savedDdir ∧
    (assertReset s).latch = State.reset.latch ∧
    (assertReset s).todo = State.reset.todo ∧
    (assertReset s).configured = State.reset.configured ∧
    (assertReset s).idxCsr = State.reset.idxCsr ∧
    (assertReset s).idxCsw = State.reset.idxCsw ∧
    (assertReset s).idxMode = State.reset.idxMode ∧
    (assertReset s).idxReset = State.reset.idxReset ∧
    (assertReset s).idxInt = State.reset.idxInt ∧
    (assertReset s).seqVariant = State.reset.seqVariant ∧
    (assertReset s).blankPol = State.reset.blankPol ∧
    (assertReset s).dshared = State.reset.dshared ∧
    (assertReset s).portsInit = State.reset.portsInit ∧
    (assertReset s).ctrlOut = State.reset.ctrlOut ∧
    (assertReset s).ctrlDir = State.reset.ctrlDir ∧
    (assertReset s).dout = State.reset.dout ∧
    (assertReset s).ddir = State.reset.ddir ∧
    (assertReset s).intDir = State.reset.intDir ∧
    (assertReset s).curMode = State.reset.curMode ∧
    (assertReset s).r1mir = State.reset.r1mir ∧
    (assertReset s).colmir = State.reset.colmir ∧
    (assertReset s).tbase = State.reset.tbase ∧
    (assertReset s).result = State.reset.result ∧
    (assertReset s).vdpstat = State.reset.vdpstat ∧
    (assertReset s).ovr = State.reset.ovr ∧
    (assertReset s).ill = State.reset.ill ∧
    (assertReset s).noopFlag = State.reset.noopFlag ∧
    (assertReset s).partialFlag = State.reset.partialFlag ∧
    (assertReset s).pacedFlag = State.reset.pacedFlag ∧
    (assertReset s).waitInt = State.reset.waitInt ∧
    (assertReset s).hostmem = s.hostmem ∧
    (assertReset s).hostmemBefore = s.hostmemBefore ∧
    (assertReset s).trace = State.reset.trace ∧
    (assertReset s).inputs = s.inputs ∧
    (assertReset s).reads = s.reads ∧
    (assertReset s).memReads = s.memReads ∧
    (assertReset s).dinScript = s.dinScript ∧
    (assertReset s).intScript = s.intScript ∧
    (assertReset s).draws = s.draws + 9 ∧
    (assertReset s).vdp = s.vdp.map (RefVdp.afterReset s.draws) := by
  repeat' (first | rfl | constructor)

end Sys2Proof.Machine
end

