-- ==== Sys2Proof/Laws/Run.lean ====
section
/-! SUPPORT. Running a command: what a step of the sequencer can do, running with nothing pending, and the induction that
covers every landing of the environment's operations. -/

namespace Sys2Proof.Machine

/-! ## What a step of the pseudocode never touches -/

@[simp] theorem perform_inputs (op : MicroOp) (s : State) : (perform op s).inputs = s.inputs := by cases op <;> rfl

@[simp] theorem perform_arst (op : MicroOp) (s : State) : (perform op s).arst = s.arst := by cases op <;> rfl

@[simp] theorem perform_params (op : MicroOp) (s : State) : (perform op s).params = s.params := by cases op <;> rfl

@[simp] theorem perform_reads (op : MicroOp) (s : State) : (perform op s).reads = s.reads := by cases op <;> rfl

@[simp] theorem perform_memReads (op : MicroOp) (s : State) : (perform op s).memReads = s.memReads := by
  cases op <;> rfl

@[simp] theorem perform_hostmemBefore (op : MicroOp) (s : State) :
    (perform op s).hostmemBefore = s.hostmemBefore := by cases op <;> rfl

@[simp] theorem perform_todo (op : MicroOp) (s : State) : (perform op s).todo = s.todo := by cases op <;> rfl

@[simp] theorem perform_cw (op : MicroOp) (s : State) : (perform op s).cw = s.cw := by cases op <;> rfl

/-- No step of the pseudocode looks at what is still to land. -/
theorem perform_withInputs (op : MicroOp) (s : State) (l : List Input) :
    perform op { s with inputs := l } = { perform op s with inputs := l } := by cases op <;> rfl

/-! ## Running with nothing pending -/

/-- Where the host waits for BUSY = 0, nothing lands. -/
theorem landInputs_of_waits {s : State} (h : hostWaits s.inputs = true) : landInputs s.inputs s = s := by
  obtain ⟨l, hl⟩ : ∃ l, s.inputs = l := ⟨_, rfl⟩
  have hs : { s with inputs := l } = s := by subst hl; rfl
  rw [hl] at h ⊢
  match l, h with
  | [], _ => exact hs
  | .waitIdle :: _, _ => exact hs

/-- With nothing pending a step that is no window wait is performed, and the sequencer goes on. -/
theorem runOps_cons_quiet {op : MicroOp} (rest : List MicroOp) {s : State} (hi : hostWaits s.inputs = true) (ha : s.arst = false)
    (hop : op ≠ .windowWait) : runOps (op :: rest) s = runOps rest (perform op s) := by
  simp [runOps, landInputs_of_waits hi, ha, hop]

/-- The steps of a list performed one after another. -/
def performAll (ops : List MicroOp) (s : State) : State := ops.foldl (fun s op => perform op s) s

@[simp] theorem performAll_nil (s : State) : performAll [] s = s := rfl

@[simp] theorem performAll_cons (op : MicroOp) (ops : List MicroOp) (s : State) :
    performAll (op :: ops) s = performAll ops (perform op s) := rfl

theorem performAll_append (a b : List MicroOp) (s : State) :
    performAll (a ++ b) s = performAll b (performAll a s) := by simp [performAll, List.foldl_append]

theorem performAll_keeps {α : Type} (f : State → α) (hf : ∀ op s, f (perform op s) = f s) (ops : List MicroOp)
    (s : State) : f (performAll ops s) = f s := by
  induction ops generalizing s with
  | nil => rfl
  | cons op ops ih => rw [performAll_cons, ih, hf]

@[simp] theorem performAll_inputs (ops : List MicroOp) (s : State) : (performAll ops s).inputs = s.inputs :=
  performAll_keeps _ perform_inputs ops s

@[simp] theorem performAll_arst (ops : List MicroOp) (s : State) : (performAll ops s).arst = s.arst :=
  performAll_keeps _ perform_arst ops s

@[simp] theorem performAll_params (ops : List MicroOp) (s : State) : (performAll ops s).params = s.params :=
  performAll_keeps _ perform_params ops s

/-- With nothing pending, a list of steps with no window wait at its front part is performed in one go. -/
theorem runOps_append_quiet {a : List MicroOp} (b : List MicroOp) {s : State} (hi : hostWaits s.inputs = true)
    (ha : s.arst = false) (hw : MicroOp.windowWait ∉ a) : runOps (a ++ b) s = runOps b (performAll a s) := by
  induction a generalizing s with
  | nil => rfl
  | cons op a ih =>
    have hop : op ≠ .windowWait := fun h => hw (by simp [h])
    rw [List.cons_append, runOps_cons_quiet _ hi ha hop, performAll_cons]
    exact ih (by simpa using hi) (by simpa using ha) (fun h => hw (by simp [h]))

/-- With nothing pending, a command without a window wait performs its steps and is done. -/
theorem runOps_quiet {ops : List MicroOp} {s : State} (hi : hostWaits s.inputs = true) (ha : s.arst = false)
    (hw : MicroOp.windowWait ∉ ops) : runOps ops s = { performAll ops s with todo := [] } := by
  have h := runOps_append_quiet (b := []) hi ha hw
  simpa [runOps] using h

/-- With nothing pending, one pass of the window wait: it goes on if the level is there, and stays if it is not. -/
theorem runOps_windowWait_quiet (rest : List MicroOp) {s : State} (hi : hostWaits s.inputs = true) (ha : s.arst = false) :
    runOps (.windowWait :: rest) s =
      if intLevel s = s.params.intWaitLevel then runOps rest (pollInt s)
      else { pollInt s with todo := .windowWait :: rest } := by
  simp only [runOps, landInputs_of_waits hi, ha, perform, pollInt_fields, bne_iff_ne, ne_eq, true_and]
  split <;> simp_all

/-- Where nothing lands before each step of a list's front part, that part is performed, and what lands next is as placed. -/
theorem runOps_append_placed {a : List MicroOp} (b : List MicroOp) (l : List Input) {s : State} (ha : s.arst = false)
    (hw : MicroOp.windowWait ∉ a) :
    runOps (a ++ b) { s with inputs := List.replicate a.length .advance ++ l } =
      runOps b { performAll a s with inputs := l } := by
  induction a generalizing s with
  | nil => rfl
  | cons op a ih =>
    have hop : op ≠ .windowWait := fun h => hw (by simp [h])
    have first : runOps (op :: (a ++ b)) { s with inputs := List.replicate (a.length + 1) .advance ++ l } =
        runOps (a ++ b) (perform op { s with inputs := List.replicate a.length .advance ++ l }) := by
      simp [runOps, List.replicate_succ, landInputs, ha, hop]
    rw [List.cons_append, List.length_cons, first, perform_withInputs, performAll_cons]
    exact ih (by simpa using ha) (fun h => hw (by simp [h]))

/-! ## Running whatever lands -/

/-- A host read of HOSTMEM gives the byte it holds, or, asked for the old one while a command runs, the byte without that
command's writes (R317). -/
theorem hostMemByte_cases (a : HostAddr) (old : Bool) (s : State) :
    hostMemByte a old s = s.hostmem.hostRead a ∨
      (s.busy = true ∧ old = true ∧ hostMemByte a old s = s.hostmemBefore.hostRead a) := by
  unfold hostMemByte
  split <;> simp_all

theorem landInput_arst_false {i : Input} {s : State} (h : s.arst = false) (hi : i ≠ .arst true) :
    (landInput i s).arst = false := by
  cases i with
  | arst b => cases b <;> simp_all [landInput]
  | _ => simp_all [landInput, dropCommand, hostCtrlWrite, hostCtrlDirWrite]

/-- What lands before a step: a property that every single operation keeps, and that does not look at what is still to
come, holds after it, or ARST has been asserted. -/
theorem landInputs_induct {P : State → Prop}
    (land : ∀ i s, P s → s.arst = false → i ≠ .arst true → P (landInput i s))
    (inputs : ∀ s l, P s → P { s with inputs := l }) (l : List Input) (s : State) (h : P s) (ha : s.arst = false) :
    (P (landInputs l s) ∧ (landInputs l s).arst = false) ∨ ∃ u, P u ∧ u.arst = false ∧ landInputs l s = assertReset u := by
  induction l generalizing s with
  | nil => exact .inl ⟨inputs _ _ h, ha⟩
  | cons i l ih =>
    by_cases hr : i = .arst true
    · subst hr
      exact .inr ⟨_, inputs _ l h, ha, rfl⟩
    · have next := ih (landInput i s) (land i s h ha hr) (landInput_arst_false ha hr)
      cases i with
      | advance => exact .inl ⟨inputs _ _ h, ha⟩
      | waitIdle => exact .inl ⟨inputs _ _ h, ha⟩
      | arst b => cases b <;> [exact next; exact absurd rfl hr]
      | _ => exact next

/-- The induction over a running command, whatever lands: `P ops s` says what holds when `ops` are the steps left. -/
theorem runOps_induct {P : List MicroOp → State → Prop} {Q : State → Prop}
    (land : ∀ ops i s, P ops s → s.arst = false → i ≠ .arst true → P ops (landInput i s))
    (inputs : ∀ ops s l, P ops s → P ops { s with inputs := l })
    (reset : ∀ ops s, P ops s → s.arst = false → Q (assertReset s))
    (step : ∀ op rest s, P (op :: rest) s → s.arst = false →
      ¬(op = .windowWait ∧ (perform op s).waitInt = true) → P rest (perform op s))
    (done : ∀ s, P [] s → s.arst = false → Q { s with todo := [] })
    (wait : ∀ rest s, P (.windowWait :: rest) s → s.arst = false → (pollInt s).waitInt = true →
      Q { pollInt s with todo := .windowWait :: rest })
    (ops : List MicroOp) (s : State) (h : P ops s) (ha : s.arst = false) : Q (runOps ops s) := by
  induction ops generalizing s with
  | nil => exact done s h ha
  | cons op rest ih =>
    rw [runOps]
    rcases landInputs_induct (P := P (op :: rest)) (fun i s => land _ i s) (fun s l => inputs _ s l) s.inputs s h ha with
      ⟨hp, hn⟩ | ⟨u, hu, hua, he⟩
    · simp only [hn, Bool.false_eq_true, ↓reduceIte]
      split
      · rename_i hc
        obtain ⟨rfl, hw⟩ := hc
        exact wait _ _ hp hn hw
      · rename_i hc
        exact ih _ (step _ _ _ hp hn hc) (by simpa using hn)
    · simp only [he, assertReset_fields, ↓reduceIte]
      exact reset _ _ hu hua

/-! ## What a command answers -/

/-- Every command answers the state its steps leave (R102). -/
theorem command_eq (g : Bool) (ops : List MicroOp) (r : ResultSource) (s : State) :
    command g ops r s =
      .next (runOps (if g then ops ++ [.finish r] else [.noop false]) { s with busy := true }) := by
  cases g <;> rfl

theorem bulkCommand_eq (g : Bool) (ops : List MicroOp) (s : State) :
    bulkCommand g ops s =
      .next (runOps (if g then ops ++ [.finish .count] else [.noop true]) { s with busy := true }) := by
  cases g <;> rfl

/-- A step that answers a next state is one of these (R71, R100, R101). -/
theorem step_cases {s t : State} (h : step s = .next t) :
    (s.busy = true ∧ s.arst = false ∧ t = runOps s.todo s) ∨
    ((s.busy = false ∨ s.arst = true) ∧ s.inputs = [] ∧ t = s) ∨
    (∃ i rest, (s.busy = false ∨ s.arst = true) ∧ s.inputs = i :: rest ∧ (s.arst = true ∨ ∀ w, i ≠ .command w) ∧
      t = landInput i { s with inputs := rest }) ∨
    (∃ w rest, s.inputs = .command w :: rest ∧ s.busy = false ∧ s.arst = false ∧
      startCommand w { s with inputs := rest } = .next t) := by
  unfold step turn at h
  by_cases hb : (s.busy && !s.arst) = true
  · simp only [hb, ↓reduceIte] at h
    simp only [Bool.and_eq_true, Bool.not_eq_true'] at hb
    cases h
    exact .inl ⟨hb.1, hb.2, rfl⟩
  · simp only [hb] at h
    have hb' : s.busy = false ∨ s.arst = true := by
      cases h1 : s.busy <;> cases h2 : s.arst <;> simp_all
    match hi : s.inputs with
    | [] =>
      simp only [hi] at h
      cases h
      exact .inr (.inl ⟨hb', rfl, rfl⟩)
    | .command w :: rest =>
      simp only [hi] at h
      cases ha : s.arst with
      | true =>
        simp only [ha] at h
        cases h
        exact .inr (.inr (.inl ⟨_, rest, .inr rfl, rfl, .inl rfl, rfl⟩))
      | false =>
        simp only [ha] at h
        refine .inr (.inr (.inr ⟨w, rest, rfl, ?_, rfl, h⟩))
        simpa [ha] using hb
    | .ctrlWrite .. :: rest | .ctrlDirWrite .. :: rest | .memWrite .. :: rest | .memRead .. :: rest
    | .read _ :: rest | .arst _ :: rest | .vdpInterrupt :: rest | .advance :: rest | .waitIdle :: rest =>
      simp only [hi] at h
      cases h
      exact .inr (.inr (.inl ⟨_, rest, hb', rfl, .inr (by intro w hw; cases hw), rfl⟩))

end Sys2Proof.Machine
end

