-- ==== Sys2Proof/Laws/Bus.lean ====
section
/-! SUPPORT. The levels of the control port from the idle bus, and which events the reference VDP takes as frames. -/

namespace Sys2Proof.Machine

open Sys2Proof.Expected

/-! ## The VDP and the events that are no frame -/

/-- Two pins with legal indices that differ are two places of the control port. -/
theorem toNat_ne {a b : BitVec 4} (h : a ≠ b) : a.toNat ≠ b.toNat := fun e => h (BitVec.eq_of_toNat_eq e)

/-- A `Ctrl` event while the write strobe has no role or is not driven is no frame (R302; log 10). -/
theorem vdpAfter_ctrl_undriven (w : Walk) (c : Byte) (v : Option RefVdp) (h : w.drives w.idxCsw = false) :
    vdpAfter w (.ctrl c) v = v := by
  have hf : w.frameAt (.ctrl c) = none := by simp [Walk.frameAt, Walk.writeEdge, h]
  cases v <;> simp [vdpAfter, hf]

/-- A `Ctrl` event under which the write strobe does not rise is no frame (R132). -/
theorem vdpAfter_ctrl_still (w : Walk) (c : Byte) (v : Option RefVdp)
    (h : w.ctrl.getLsbD w.idxCsw.toNat = true ∨ c.getLsbD w.idxCsw.toNat = false) : vdpAfter w (.ctrl c) v = v := by
  have hf : w.frameAt (.ctrl c) = none := by
    rcases h with h | h <;> simp [Walk.frameAt, Walk.writeEdge, h]
  cases v <;> simp [vdpAfter, hf]

/-- The rising edge of a driven write strobe is a write frame (R132). -/
theorem vdpAfter_ctrl_edge (w : Walk) (c : Byte) (v : Option RefVdp) (hd : w.drives w.idxCsw = true)
    (h0 : w.ctrl.getLsbD w.idxCsw.toNat = false) (h1 : c.getLsbD w.idxCsw.toNat = true) :
    vdpAfter w (.ctrl c) v = v.map fun u => u.writeFrame (w.modeAsserted c) w.dout := by
  have hf : w.frameAt (.ctrl c) = some ⟨.write, w.modeAsserted c, w.dout⟩ := by
    simp [Walk.frameAt, Walk.writeEdge, hd, h0, h1]
  cases v <;> simp [vdpAfter, hf]

/-- A sample while the read strobe is asserted is a read frame (R132). -/
theorem vdpAfter_sampD (w : Walk) (b : Byte) (v : Option RefVdp) (h : w.readStrobed = true) :
    vdpAfter w (.sampD b) v = v.map fun u => u.readFrame (w.modeAsserted w.ctrl) := by
  have hf : w.frameAt (.sampD b) = some ⟨.read, w.modeAsserted w.ctrl, b⟩ := by simp [Walk.frameAt, h]
  cases v <;> simp [vdpAfter, hf]

/-! ## The control port from idle -/

section

variable {s : State} (hp : PinsWf s) (hb : BusIdle s)

include hp hb

theorem modeOn_csw : (modeOn s).getLsbD s.idxCsw.toNat = true := by
  rw [modeOn, getLsbD_withBit_other _ _ hp.csw (toNat_ne hp.cswMode), hb.csw]

theorem modeOn_csr : (modeOn s).getLsbD s.idxCsr.toNat = true := by
  rw [modeOn, getLsbD_withBit_other _ _ hp.csr (toNat_ne hp.csrMode), hb.csr]

omit hb in
theorem modeOn_mode : (modeOn s).getLsbD s.idxMode.toNat = s.params.modeAssertLevel := by
  rw [modeOn, getLsbD_withBit_same _ _ hp.mode]

omit hp in
theorem modeOn_off : withBit (modeOn s) s.idxMode.toNat (!s.params.modeAssertLevel) = s.ctrlOut := by
  rw [modeOn, withBit_withBit, withBit_self _ hb.mode]

omit hp hb in
theorem cswLow_up {c : Byte} (h : c.getLsbD s.idxCsw.toNat = true) : withBit (cswLow s c) s.idxCsw.toNat true = c := by
  rw [cswLow, withBit_withBit, withBit_self _ h]

omit hp hb in
theorem csrLow_up {c : Byte} (h : c.getLsbD s.idxCsr.toNat = true) : withBit (csrLow s c) s.idxCsr.toNat true = c := by
  rw [csrLow, withBit_withBit, withBit_self _ h]

omit hb in
theorem cswLow_csw (c : Byte) : (cswLow s c).getLsbD s.idxCsw.toNat = false := by
  rw [cswLow, getLsbD_withBit_same _ _ hp.csw]

omit hb in
theorem csrLow_csr (c : Byte) : (csrLow s c).getLsbD s.idxCsr.toNat = false := by
  rw [csrLow, getLsbD_withBit_same _ _ hp.csr]

omit hb in
theorem csrLow_csw (c : Byte) : (csrLow s c).getLsbD s.idxCsw.toNat = c.getLsbD s.idxCsw.toNat := by
  rw [csrLow, getLsbD_withBit_other _ _ hp.csw (toNat_ne hp.csrCsw).symm]

omit hb in
theorem csrLow_mode (c : Byte) : (csrLow s c).getLsbD s.idxMode.toNat = c.getLsbD s.idxMode.toNat := by
  rw [csrLow, getLsbD_withBit_other _ _ hp.mode (toNat_ne hp.csrMode).symm]

omit hb in
theorem cswLow_modeOn : withBit (cswLow s s.ctrlOut) s.idxMode.toNat s.params.modeAssertLevel = cswLow s (modeOn s) := by
  rw [cswLow, cswLow, modeOn, withBit_comm _ _ _ (toNat_ne hp.cswMode)]

omit hb in
theorem csrLow_modeOn : withBit (csrLow s s.ctrlOut) s.idxMode.toNat s.params.modeAssertLevel = csrLow s (modeOn s) := by
  rw [csrLow, csrLow, modeOn, withBit_comm _ _ _ (toNat_ne hp.csrMode)]

end

end Sys2Proof.Machine
end

