-- ==== Sys2Proof/Laws/Sequences.lean ====
section
/-! SUPPORT. What the shared bus sequences do from the idle bus, each said once: a framing pair, a status read, one byte of
a burst, a whole byte loop. -/

namespace Sys2Proof.Machine

open Sys2Proof.Expected

theorem vdpAfter_still_high (w : Walk) (c : Byte) (v : Option RefVdp) (h : w.ctrl.getLsbD w.idxCsw.toNat = true) :
    vdpAfter w (.ctrl c) v = v := vdpAfter_ctrl_still w c v (.inl h)

theorem vdpAfter_still_low (w : Walk) (c : Byte) (v : Option RefVdp) (h : c.getLsbD w.idxCsw.toNat = false) :
    vdpAfter w (.ctrl c) v = v := vdpAfter_ctrl_still w c v (.inr h)

/-- A framing pair from the idle bus, in either sequencing variant (R138). -/
theorem performAll_frame2 {s : State} (hc : s.configured = true) (hp : PinsWf s) (hb : BusIdle s) (b1 b2 : Byte) :
    performAll (frame2 s.seqVariant b1 b2) s = afterPair s (b1, b2) := by
  have e1 := modeOn_csw hp hb
  have e2 := modeOn_mode hp
  have e3 := modeOn_off hb
  have e4 := cswLow_up (s := s) e1
  have e5 := cswLow_csw hp
  have e6 := cswLow_modeOn hp
  have e7 := hb.csw
  have e8 := hb.cswOut
  cases hv : s.seqVariant with
  | modeFirst =>
    simp only [frame2, writePulse, List.cons_append, List.nil_append, performAll_cons, performAll_nil, perform, assertOp,
      deassertOp, driveLine, writeCtrl, putData, State.roleIndex, assertLevel, Bool.not_false,
      ← modeOn.eq_1, ← cswLow.eq_1, e3, e4, State.walk]
    simp (disch := simp_all [Walk.drives]) only [vdpAfter_still_high, vdpAfter_ctrl_edge]
    simp [afterPair, pairEvents, hv, Walk.modeAsserted, e2, Function.comp_def]
  | modeAfterStrobe =>
    simp only [frame2, writePulse, List.cons_append, List.nil_append, performAll_cons, performAll_nil, perform, assertOp,
      deassertOp, driveLine, writeCtrl, putData, State.roleIndex, assertLevel, Bool.not_false,
      ← cswLow.eq_1, e3, e4, e6, State.walk]
    simp (disch := simp_all [Walk.drives]) only [vdpAfter_still_high, vdpAfter_still_low, vdpAfter_ctrl_edge]
    simp [afterPair, pairEvents, hv, Walk.modeAsserted, e2, Function.comp_def]

/-- With the mode line asserted the VDP's answer is any value (R82). -/
theorem vdpAnswer_framing {s : State} (h : s.walk.modeAsserted s.ctrlOut = true) : vdpAnswer s = none := by
  unfold vdpAnswer
  split
  · rfl
  · simp [h, RefVdp.answer]

theorem dinByte_of_any {s : State} (h : vdpAnswer s = none) : dinByte s = anyByte s := by
  simp [dinByte, h]
theorem dinScriptAfter_of_any {s : State} (h : vdpAnswer s = none) : dinScriptAfter s = s.dinScript.tail := by
  simp [dinScriptAfter, h]

/-- A sample with the mode line asserted is a framing read, whose byte is any value (R82, R132). -/
theorem sampleData_framing {s : State} (hm : s.walk.modeAsserted s.ctrlOut = true) (hr : s.walk.readStrobed = true) :
    sampleData s = { s with
      latch := anyByte s
      trace := .sampD (anyByte s) :: s.trace
      vdp := s.vdp.map fun v => v.readFrame true
      dinScript := s.dinScript.tail
      draws := s.draws + 1 } := by
  have h := vdpAnswer_framing hm
  have hm' : s.walk.modeAsserted s.walk.ctrl = true := hm
  simp [sampleData, dinByte_of_any h, dinScriptAfter_of_any h, vdpAfter_sampD _ _ _ hr, hm']

/-- A status read from the idle bus, and its byte in VDPSTAT (R199, R230, R231). -/
theorem performAll_statusRead {s : State} (hp : PinsWf s) (hb : BusIdle s) :
    performAll (statusRead s.seqVariant ++ [.latchStatus]) s = afterStatus s := by
  have e1 := modeOn_csw hp hb
  have e2 := modeOn_mode hp
  have e3 := modeOn_off hb
  have e4 := csrLow_up (s := s) (modeOn_csr hp hb)
  have e5 := csrLow_csr hp
  have e5m := csrLow_mode hp
  have e5w := csrLow_csw hp
  have e6 := csrLow_modeOn hp
  have e7 := hb.csw
  cases hv : s.seqVariant with
  | modeFirst =>
    simp only [statusRead, readPulse, List.cons_append, List.nil_append, performAll_cons, performAll_nil, perform, assertOp,
      deassertOp, driveLine, writeCtrl, setDataDir, State.roleIndex, assertLevel, Bool.not_false,
      ← modeOn.eq_1, ← csrLow.eq_1]
    rw [sampleData_framing]
    · simp only [e3, e4, State.walk]
      simp (disch := simp_all) only [vdpAfter_still_high]
      simp [afterStatus, statusEvents, hv]; rfl
    · simp [State.walk, Walk.modeAsserted, e5m, e2]
    · simp [State.walk, Walk.readStrobed, e5]
  | modeAfterStrobe =>
    simp only [statusRead, List.cons_append, List.nil_append, performAll_cons, performAll_nil, perform, assertOp,
      deassertOp, driveLine, writeCtrl, setDataDir, State.roleIndex, assertLevel, Bool.not_false, ← csrLow.eq_1, e6]
    rw [sampleData_framing]
    · simp only [e3, e4, State.walk]
      simp (disch := simp_all) only [vdpAfter_still_high]
      simp [afterStatus, statusEvents, hv]; rfl
    · simp [State.walk, Walk.modeAsserted, e5m, e2]
    · simp [State.walk, Walk.readStrobed, e5]

/-- The host address of byte `k` (R202). -/
theorem hostAddress_eq (h m : BitVec 16) (k : Nat) (hk : k < 65536) :
    hostAddress h m (BitVec.ofNat 16 k) = byteAddress h m k := by
  apply BitVec.eq_of_toNat_eq
  simp [hostAddress, byteAddress, BitVec.toNat_umod, Nat.mod_eq_of_lt hk]

/-- The mode line is not asserted on the idle bus (R139). -/
theorem idle_not_modeAsserted {s : State} (hb : BusIdle s) : s.walk.modeAsserted s.ctrlOut = false := by
  have := hb.mode
  simp [Walk.modeAsserted, State.walk, this]

/-- The steps of byte `k` of a burst, its delay among them (R198). -/
def byteSteps (paced : Bool) (byte : List MicroOp) (k : Nat) : List MicroOp :=
  .setIndex (BitVec.ofNat 16 k) :: ((if !paced && 0 < k then [.delay] else []) ++ byte)

/-- One byte of a write burst from the idle bus (R194). -/
theorem performAll_writeByte {s : State} (hc : s.configured = true) (hp : PinsWf s) (hb : BusIdle s) (paced : Bool)
    (h m : BitVec 16) (k : Nat) (hk : k < 65536) :
    performAll (byteSteps paced (writeByte h m) k) s = afterWriteByte paced h m k s := by
  have e4 := cswLow_up (s := s) hb.csw
  have e5 := cswLow_csw hp
  have e7 := hb.csw
  have e8 := hb.cswOut
  have e9 := idle_not_modeAsserted hb
  simp only [Walk.modeAsserted, State.walk] at e9
  have key : ∀ u : State, u.configured = true → u.ctrlOut = s.ctrlOut → u.ctrlDir = s.ctrlDir → u.idxCsw = s.idxCsw →
      u.idxMode = s.idxMode → u.params = s.params → u.i = BitVec.ofNat 16 k →
      performAll (writeByte h m) u = { u with
        latch := u.hostmem.hostRead (byteAddress h m k)
        dout := u.hostmem.hostRead (byteAddress h m k)
        trace := .ctrl s.ctrlOut :: .ctrl (cswLow s s.ctrlOut) :: .data (u.hostmem.hostRead (byteAddress h m k)) ::
          .hrd (byteAddress h m k) (u.hostmem.hostRead (byteAddress h m k)) :: u.trace
        vdp := u.vdp.map fun v => v.writeFrame false (u.hostmem.hostRead (byteAddress h m k)) } := by
    intro u u1 u2 u3 u4 u5 u6 u7
    simp only [writeByte, performAll_cons, performAll_nil, perform, assertOp, deassertOp, driveLine, writeCtrl, putData,
      memRead, State.roleIndex, assertLevel, Bool.not_false, State.walk, u1, u2, u3, u4, u5, u6, u7, hostAddress_eq _ _ _ hk,
      ← cswLow.eq_1, e4]
    simp (disch := simp_all [Walk.drives]) only [vdpAfter_still_high, vdpAfter_ctrl_edge]
    simp only [Walk.modeAsserted, e9]
  unfold byteSteps
  rw [performAll_cons, performAll_append]
  by_cases hd : (!paced && decide (0 < k)) = true
  · rw [if_pos hd]
    simp only [Bool.and_eq_true, Bool.not_eq_true', decide_eq_true_eq] at hd
    rw [key] <;> first | rfl | assumption | skip
    have : k ≠ 0 := by omega
    simp [perform, delayOp, afterWriteByte, writeByteEvents, gap, hd.1, this]
  · rw [if_neg hd]
    rw [key] <;> first | rfl | assumption | skip
    have : paced = true ∨ k = 0 := by
      cases paced <;> simp_all
    simp [perform, afterWriteByte, writeByteEvents, gap, this]

/-- One byte of a read burst from the idle bus (R195). -/
theorem performAll_readByte {s : State} (hc : s.configured = true) (hp : PinsWf s) (hb : BusIdle s) (paced : Bool)
    (h m : BitVec 16) (k : Nat) (hk : k < 65536) :
    performAll (byteSteps paced (readByte h m) k) s = afterReadByte paced h m k s := by
  have e4 := csrLow_up (s := s) hb.csr
  have e5 := csrLow_csr hp
  have e5m := csrLow_mode hp
  have e5w := csrLow_csw hp
  have e7 := hb.csw
  have e9 := idle_not_modeAsserted hb
  simp only [Walk.modeAsserted, State.walk] at e9
  have key : ∀ u : State, u.configured = true → u.ctrlOut = s.ctrlOut → u.ctrlDir = s.ctrlDir → u.idxCsw = s.idxCsw →
      u.idxCsr = s.idxCsr → u.ddir = s.ddir →
      u.idxMode = s.idxMode → u.params = s.params → u.i = BitVec.ofNat 16 k →
      performAll (readByte h m) u = { u with
        latch := dataByte u
        hostmem := u.hostmem.hostWrite (byteAddress h m k) (dataByte u)
        trace := .hwr (byteAddress h m k) (dataByte u) :: .ctrl s.ctrlOut :: .sampD (dataByte u) ::
          .ctrl (csrLow s s.ctrlOut) :: u.trace
        vdp := u.vdp.map fun v => v.readFrame false
        dinScript := if (dataAnswer u).isSome then u.dinScript else u.dinScript.tail
        draws := u.draws + 1 } := by
    intro u u1 u2 u3 u4 u4' ud u5 u6 u7
    have a1 : ∀ (x : State), x.vdp = u.vdp → x.configured = u.configured → x.ctrlDir = u.ctrlDir → x.idxCsr = u.idxCsr →
        x.idxMode = u.idxMode → x.idxCsw = u.idxCsw → x.params = u.params → x.ddir = u.ddir → x.dshared = u.dshared →
        x.ctrlOut = csrLow s s.ctrlOut →
        vdpAnswer x = dataAnswer u := by
      intro x x1 x2 x3 x4 x5 x6 x7 x8 x9 x10
      have r1 : x.walk.readStrobed = true := by
        simp [Walk.readStrobed, State.walk, x4, x10, u4', e5]
      have r2 : x.walk.modeAsserted x.ctrlOut = false := by
        simp only [Walk.modeAsserted, State.walk, x5, x7, x10, u5, u6, e5m, e9]
      unfold vdpAnswer dataAnswer
      rw [x1]
      cases u.vdp with
      | none => rfl
      | some v =>
        have hd : ¬ s.ddir = 0#8 := by rw [hb.ddir]; decide
        simp [contended, r1, r2, x8, x9, ud, hd]
    simp only [readByte, readPulse, List.cons_append, List.nil_append, performAll_cons, performAll_nil, perform, assertOp,
      deassertOp, driveLine, writeCtrl, memWrite, sampleData, State.roleIndex, assertLevel, Bool.not_false, State.walk, u1,
      u2, u3, u4, u4', u5, u6, u7, hostAddress_eq _ _ _ hk, ← csrLow.eq_1, e4]
    simp (disch := simp_all [Walk.readStrobed]) only [vdpAfter_still_high, vdpAfter_sampD]
    simp only [dinByte, dinScriptAfter]
    rw [a1] <;> first | rfl | assumption | simp only [u1, u3, u4, u4', u5, u6] | skip
    simp only [dataByte, Walk.modeAsserted, e5m, e9]
    rfl
  unfold byteSteps
  rw [performAll_cons, performAll_append]
  by_cases hd : (!paced && decide (0 < k)) = true
  · rw [if_pos hd]
    simp only [Bool.and_eq_true, Bool.not_eq_true', decide_eq_true_eq] at hd
    rw [key] <;> first | rfl | assumption | skip
    have : k ≠ 0 := by omega
    simp [perform, delayOp, afterReadByte, readByteEvents, gap, hd.1, this, dataByte, dataAnswer, anyByte]
  · rw [if_neg hd]
    rw [key] <;> first | rfl | assumption | skip
    have : paced = true ∨ k = 0 := by
      cases paced <;> simp_all
    simp [perform, afterReadByte, readByteEvents, gap, this, dataByte, dataAnswer, anyByte]

/-! ## Whole byte loops -/

/-- A byte loop is the steps of its bytes in order. -/
theorem byteLoop_eq (paced : Bool) (byte : List MicroOp) (n : Nat) :
    byteLoop paced byte n = (List.range n).flatMap (byteSteps paced byte) := rfl

theorem byteLoop_succ (paced : Bool) (byte : List MicroOp) (n : Nat) :
    byteLoop paced byte (n + 1) = byteLoop paced byte n ++ byteSteps paced byte n := by
  simp [byteLoop_eq, List.range_succ]

/-- What a write burst leaves as it was. -/
theorem afterWriteBytes_keeps {α : Type} (f : State → α) (paced : Bool) (h m : BitVec 16)
    (hf : ∀ k u, f (afterWriteByte paced h m k u) = f u) (n : Nat) (s : State) :
    f (afterWriteBytes paced h m n s) = f s := by
  induction n with
  | zero => rfl
  | succ n ih => rw [afterWriteBytes, hf, ih]

/-- What a read burst leaves as it was. -/
theorem afterReadBytes_keeps {α : Type} (f : State → α) (paced : Bool) (h m : BitVec 16)
    (hf : ∀ k u, f (afterReadByte paced h m k u) = f u) (n : Nat) (s : State) :
    f (afterReadBytes paced h m n s) = f s := by
  induction n with
  | zero => rfl
  | succ n ih => rw [afterReadBytes, hf, ih]

/-- Legal pins depend on the five indices alone. -/
theorem PinsWf.of_eq {s t : State} (h : PinsWf s) (h1 : t.idxCsr = s.idxCsr) (h2 : t.idxCsw = s.idxCsw)
    (h3 : t.idxMode = s.idxMode) (h4 : t.idxReset = s.idxReset) (h5 : t.idxInt = s.idxInt) : PinsWf t := by
  obtain ⟨a, b, c, d, e, f, g, i, j, k, l⟩ := h
  constructor <;> simp_all

/-- The idle bus depends on the pin indices, the port registers and the polarities alone. -/
theorem BusIdle.of_eq {s t : State} (h : BusIdle s) (h1 : t.idxCsr = s.idxCsr) (h2 : t.idxCsw = s.idxCsw)
    (h3 : t.idxMode = s.idxMode) (h4 : t.idxReset = s.idxReset) (h5 : t.idxInt = s.idxInt)
    (h6 : t.ctrlOut = s.ctrlOut) (h7 : t.ctrlDir = s.ctrlDir) (h8 : t.intDir = s.intDir) (h9 : t.ddir = s.ddir)
    (h10 : t.params = s.params) : BusIdle t := by
  obtain ⟨a, b, c, d, e, f, g, i, j, k⟩ := h
  constructor <;> simp_all

/-- The byte loop of a write burst from the idle bus (R194). -/
theorem performAll_writeLoop {s : State} (hc : s.configured = true) (hp : PinsWf s) (hb : BusIdle s) (paced : Bool)
    (h m : BitVec 16) (n : Nat) (hn : n ≤ 65536) :
    performAll (byteLoop paced (writeByte h m) n) s = afterWriteBytes paced h m n s := by
  induction n with
  | zero => rfl
  | succ n ih =>
    rw [byteLoop_succ, performAll_append, ih (by omega), afterWriteBytes]
    have keep {α : Type} (f : State → α) (hf : ∀ k u, f (afterWriteByte paced h m k u) = f u) :=
      afterWriteBytes_keeps f paced h m hf n s
    apply performAll_writeByte
    · rw [keep State.configured fun _ _ => rfl, hc]
    · exact hp.of_eq (keep _ fun _ _ => rfl) (keep _ fun _ _ => rfl) (keep _ fun _ _ => rfl) (keep _ fun _ _ => rfl)
        (keep _ fun _ _ => rfl)
    · exact hb.of_eq (keep _ fun _ _ => rfl) (keep _ fun _ _ => rfl) (keep _ fun _ _ => rfl) (keep _ fun _ _ => rfl)
        (keep _ fun _ _ => rfl) (keep _ fun _ _ => rfl) (keep _ fun _ _ => rfl) (keep _ fun _ _ => rfl)
        (keep _ fun _ _ => rfl) (keep _ fun _ _ => rfl)
    · omega

/-- The byte loop of a read burst from the idle bus (R195). -/
theorem performAll_readLoop {s : State} (hc : s.configured = true) (hp : PinsWf s) (hb : BusIdle s) (paced : Bool)
    (h m : BitVec 16) (n : Nat) (hn : n ≤ 65536) :
    performAll (byteLoop paced (readByte h m) n) s = afterReadBytes paced h m n s := by
  induction n with
  | zero => rfl
  | succ n ih =>
    rw [byteLoop_succ, performAll_append, ih (by omega), afterReadBytes]
    have keep {α : Type} (f : State → α) (hf : ∀ k u, f (afterReadByte paced h m k u) = f u) :=
      afterReadBytes_keeps f paced h m hf n s
    apply performAll_readByte
    · rw [keep State.configured fun _ _ => rfl, hc]
    · exact hp.of_eq (keep _ fun _ _ => rfl) (keep _ fun _ _ => rfl) (keep _ fun _ _ => rfl) (keep _ fun _ _ => rfl)
        (keep _ fun _ _ => rfl)
    · exact hb.of_eq (keep _ fun _ _ => rfl) (keep _ fun _ _ => rfl) (keep _ fun _ _ => rfl) (keep _ fun _ _ => rfl)
        (keep _ fun _ _ => rfl) (keep _ fun _ _ => rfl) (keep _ fun _ _ => rfl) (keep _ fun _ _ => rfl)
        (keep _ fun _ _ => rfl) (keep _ fun _ _ => rfl)
    · omega

end Sys2Proof.Machine
end

