-- ==== Sys2Proof/Laws/Commands.lean ====
section
/-! SUPPORT. What a whole command leaves when nothing interrupts it, in the terms of Expected.lean: a no-op, a command of
plain steps, several framing pairs in a row, a burst. -/

namespace Sys2Proof.Machine

open Sys2Proof.Expected

/-- A no-op that nothing interrupts (R104). -/
theorem execute_noop_quiet {s : State} (hq : Quiet s) (bulk : Bool) :
    execute [.noop bulk] s = .next (noopDone bulk s) := by
  unfold execute
  rw [runOps_quiet (by simpa using hq.inputs) (by simpa using hq.arst) (by simp)]
  simp [perform, noop, noopDone]

/-- A command whose guard is false and that nothing interrupts (R104, R106). -/
theorem command_false_quiet {s : State} (hq : Quiet s) (ops : List MicroOp) (r : ResultSource) :
    command false ops r s = .next (noopDone false s) := execute_noop_quiet hq false

theorem bulkCommand_false_quiet {s : State} (hq : Quiet s) (ops : List MicroOp) :
    bulkCommand false ops s = .next (noopDone true s) := execute_noop_quiet hq true

/-- A command whose guard is true, with no window wait, that nothing interrupts: its steps, then `finish(r)` (R102, R103).
-/
theorem command_true_quiet {s : State} (hq : Quiet s) {ops : List MicroOp} (r : ResultSource)
    (hw : MicroOp.windowWait ∉ ops) :
    command true ops r s =
      .next (done (resultValue (performAll ops { s with busy := true }) r) (performAll ops { s with busy := true })) := by
  rw [command_eq, runOps_quiet (by simpa using hq.inputs) (by simpa using hq.arst) (by simpa using hw)]
  simp [performAll_append, perform, finish, done]

/-- A framing pair and a status read have no window wait. -/
theorem windowWait_not_mem_frame2 (variant : SeqVariant) (b1 b2 : Byte) : MicroOp.windowWait ∉ frame2 variant b1 b2 := by
  cases variant <;> simp [frame2, writePulse]

theorem windowWait_not_mem_statusRead (variant : SeqVariant) : MicroOp.windowWait ∉ statusRead variant := by
  cases variant <;> simp [statusRead, readPulse]

theorem windowWait_not_mem_byteLoop (paced : Bool) {byte : List MicroOp} (h : MicroOp.windowWait ∉ byte) (n : Nat) :
    MicroOp.windowWait ∉ byteLoop paced byte n := by
  induction n with
  | zero => simp [byteLoop]
  | succ n ih =>
    rw [byteLoop_succ]
    simp only [List.mem_append, not_or]
    refine ⟨ih, ?_⟩
    unfold byteSteps
    split <;> simp [h]

theorem windowWait_not_mem_writeByte (h m : BitVec 16) : MicroOp.windowWait ∉ writeByte h m := by
  simp [writeByte]

theorem windowWait_not_mem_readByte (h m : BitVec 16) : MicroOp.windowWait ∉ readByte h m := by
  simp [readByte, readPulse]

/-- Several framing pairs in a row from the idle bus. -/
theorem performAll_pairs {s : State} (hc : s.configured = true) (hp : PinsWf s) (hb : BusIdle s)
    (bs : List (Byte × Byte)) :
    performAll (bs.flatMap fun b => frame2 s.seqVariant b.1 b.2) s = afterPairs s bs := by
  induction bs generalizing s with
  | nil => rfl
  | cons b bs ih =>
    rw [List.flatMap_cons, performAll_append, performAll_frame2 hc hp hb]
    exact ih (s := afterPair s b) hc (hp.of_eq rfl rfl rfl rfl rfl) (hb.of_eq rfl rfl rfl rfl rfl rfl rfl rfl rfl rfl)

/-- What framing pairs leave as it was. -/
theorem afterPairs_keeps {α : Type} (f : State → α) (hf : ∀ s b, f (afterPair s b) = f s) (s : State)
    (bs : List (Byte × Byte)) : f (afterPairs s bs) = f s := by
  induction bs generalizing s with
  | nil => rfl
  | cons b bs ih => exact (ih (afterPair s b)).trans (hf s b)

end Sys2Proof.Machine
end

