-- ==== Sys2Proof/Laws/Frames.lean ====
section
/-! SUPPORT. Frames of pieces of trace: joining two pieces, the frames of one data byte and of a status read from the idle
bus, the events and frames of a byte loop. -/

namespace Sys2Proof.Machine

open Sys2Proof.Expected

theorem walkAfter_append (w : Walk) (a b : List Event) : walkAfter w (a ++ b) = walkAfter (walkAfter w a) b := by
  simp [walkAfter]

/-- The frames of two pieces, the second walked from where the first ends. -/
theorem framesFrom_append (w : Walk) (a b : List Event) :
    framesFrom w (a ++ b) = framesFrom w a ++ framesFrom (walkAfter w a) b := by
  induction a generalizing w with
  | nil => rfl
  | cons e a ih =>
    rw [List.cons_append, framesFrom, framesFrom, ih]
    split <;> rfl

/-- The new events of a state whose trace is known. -/
theorem newEvents_eq {s t : State} (es : List Event) (h : t.trace = es.reverse ++ s.trace) : newEvents s t = es := by
  simp [newEvents, h]

/-- The walk of a state with another value on DOUT. -/
def idleWalk (s : State) (d : Byte) : Walk := { s.walk with dout := d }

/-- One byte of a write burst is one data frame, and the walk is idle again (R194). -/
theorem writeByte_frames {s : State} (hr : Ready s) (d : Byte) (paced : Bool) (k : Nat) (a : HostAddr) (v : Byte) :
    framesFrom (idleWalk s d) (writeByteEvents s paced k a v) = [⟨.write, false, v⟩] ∧
      walkAfter (idleWalk s d) (writeByteEvents s paced k a v) = idleWalk s v := by
  have e := cswLow_csw hr.pins s.ctrlOut
  unfold writeByteEvents gap
  split <;>
    simp [framesFrom, Walk.frameAt, Walk.writeEdge, Walk.after, Walk.drives, Walk.modeAsserted, State.walk, idleWalk,
      walkAfter, hr.configured, e, hr.idle.csw, hr.idle.cswOut, hr.idle.mode]

/-- One byte of a read burst is one data frame, and the walk is idle again (R195). -/
theorem readByte_frames {s : State} (hr : Ready s) (d : Byte) (paced : Bool) (k : Nat) (a : HostAddr) (v : Byte) :
    framesFrom (idleWalk s d) (readByteEvents s paced k a v) = [⟨.read, false, v⟩] ∧
      walkAfter (idleWalk s d) (readByteEvents s paced k a v) = idleWalk s d := by
  have e1 := csrLow_csr hr.pins s.ctrlOut
  have e2 := csrLow_csw hr.pins s.ctrlOut
  have e3 := csrLow_mode hr.pins s.ctrlOut
  unfold readByteEvents gap
  split <;>
    simp [framesFrom, Walk.frameAt, Walk.writeEdge, Walk.readStrobed, Walk.after, Walk.drives, Walk.modeAsserted,
      State.walk, idleWalk, walkAfter, hr.configured, e1, e2, e3, hr.idle.csw, hr.idle.mode]

/-- The events of the first `n` bytes of a write burst. -/
def writeLoopEvents (paced : Bool) (h m : BitVec 16) (s : State) (n : Nat) : List Event :=
  (List.range n).flatMap fun k =>
    writeByteEvents s paced k (byteAddress h m k) (s.hostmem.hostRead (byteAddress h m k))

/-- The events of the first `n` bytes of a read burst. -/
def readLoopEvents (paced : Bool) (h m : BitVec 16) (s : State) (n : Nat) : List Event :=
  (List.range n).flatMap fun k =>
    readByteEvents s paced k (byteAddress h m k) (dataByte (afterReadBytes paced h m k s))

theorem afterWriteBytes_trace (paced : Bool) (h m : BitVec 16) (s : State) (n : Nat) :
    (afterWriteBytes paced h m n s).trace = (writeLoopEvents paced h m s n).reverse ++ s.trace := by
  induction n with
  | zero => rfl
  | succ n ih =>
    have keep {α : Type} (f : State → α) (hf : ∀ k u, f (afterWriteByte paced h m k u) = f u) :=
      afterWriteBytes_keeps f paced h m hf n s
    have h1 := keep State.hostmem fun _ _ => rfl
    have h2 := keep State.ctrlOut fun _ _ => rfl
    have h3 := keep State.idxCsw fun _ _ => rfl
    have h4 := keep State.params fun _ _ => rfl
    rw [afterWriteBytes, afterWriteByte, ih]
    simp [writeLoopEvents, List.range_succ, h1, writeByteEvents, gap, h2, h4, cswLow, h3]

theorem afterReadBytes_trace (paced : Bool) (h m : BitVec 16) (s : State) (n : Nat) :
    (afterReadBytes paced h m n s).trace = (readLoopEvents paced h m s n).reverse ++ s.trace := by
  induction n with
  | zero => rfl
  | succ n ih =>
    have keep {α : Type} (f : State → α) (hf : ∀ k u, f (afterReadByte paced h m k u) = f u) :=
      afterReadBytes_keeps f paced h m hf n s
    have h2 := keep State.ctrlOut fun _ _ => rfl
    have h3 := keep State.idxCsr fun _ _ => rfl
    have h4 := keep State.params fun _ _ => rfl
    rw [afterReadBytes, afterReadByte, ih]
    simp [readLoopEvents, List.range_succ, readByteEvents, gap, h2, h4, csrLow, h3]

end Sys2Proof.Machine
end

