-- ==== Sys2Proof/Laws/Landing.lean ====
section
/-! SUPPORT. What the environment's operations leave alone of a bus the adapter has configured (R134, R135, R140), and the
induction over a command that nothing interrupts. -/

namespace Sys2Proof.Machine

/-- A bit of the control port that has a role (R25, R47). -/
def IsRole (s : State) (j : Nat) : Prop :=
  j = s.idxCsr.toNat ∨ j = s.idxCsw.toNat ∨ j = s.idxMode.toNat ∨ j = s.idxReset.toNat

/-- Two states with the same bus, as far as the adapter's own steps can tell: the host's bits of the control port apart. -/
structure SameBus (u v : State) : Prop where
  params : u.params = v.params
  csr : u.idxCsr = v.idxCsr
  csw : u.idxCsw = v.idxCsw
  mode : u.idxMode = v.idxMode
  reset : u.idxReset = v.idxReset
  int : u.idxInt = v.idxInt
  configured : u.configured = v.configured
  ddir : u.ddir = v.ddir
  saved : u.savedDdir = v.savedDdir
  intDir : u.intDir = v.intDir
  out : ∀ j, j < 8 → IsRole v j → u.ctrlOut.getLsbD j = v.ctrlOut.getLsbD j
  dir : ∀ j, j < 8 → IsRole v j → u.ctrlDir.getLsbD j = v.ctrlDir.getLsbD j

theorem SameBus.refl (u : State) : SameBus u u :=
  ⟨rfl, rfl, rfl, rfl, rfl, rfl, rfl, rfl, rfl, rfl, fun _ _ _ => rfl, fun _ _ _ => rfl⟩

theorem SameBus.role {u v : State} (h : SameBus u v) (r : Role) : u.roleIndex r = v.roleIndex r := by
  cases r <;> simp [State.roleIndex, h.csr, h.csw, h.mode, h.reset]

theorem SameBus.driveLine {u v : State} (h : SameBus u v) (r : Role) (level : Bool) :
    SameBus (driveLine r level u) (driveLine r level v) := by
  refine ⟨h.params, h.csr, h.csw, h.mode, h.reset, h.int, h.configured, h.ddir, h.saved, h.intDir, ?_, h.dir⟩
  intro j hj hr
  simp only [Machine.driveLine, writeCtrl, getLsbD_withBit _ _ _ _ hj, h.role]
  split
  · rfl
  · exact h.out j hj hr

/-- A bit with a role is in ROLE_MASK (R47). -/
theorem roleMask_role (s : State) (hc : s.configured = true) (j : Nat) (hj : j < 8) (h : IsRole s j) :
    s.roleMask.getLsbD j = true := by
  rw [getLsbD_roleMask s hc j hj]
  rcases h with h | h | h | h <;> simp [h]

/-- Whatever lands, short of ARST, leaves the configured bus the same (R134, R135). -/
theorem landInput_sameBus (i : Input) (u : State) (hc : u.configured = true) (hi : i ≠ .arst true) :
    SameBus (landInput i u) u := by
  have hm : ∀ (r mask val : Byte) j, j < 8 → IsRole u j →
      (maskedWrite r (u.hostWritable mask) val).getLsbD j = r.getLsbD j := by
    intro r mask val j hj hr
    rw [getLsbD_maskedWrite _ _ _ _ hj]
    simp [State.hostWritable, roleMask_role u hc j hj hr]
  have same : SameBus u u := .refl u
  cases i with
  | arst b =>
    cases b
    · exact ⟨rfl, rfl, rfl, rfl, rfl, rfl, rfl, rfl, rfl, rfl, fun _ _ _ => rfl, fun _ _ _ => rfl⟩
    · exact absurd rfl hi
  | ctrlWrite m v =>
    simp only [landInput]
    split
    · exact same
    · exact ⟨rfl, rfl, rfl, rfl, rfl, rfl, rfl, rfl, rfl, rfl, fun j hj hr => hm _ _ _ j hj hr, fun _ _ _ => rfl⟩
  | ctrlDirWrite m v =>
    simp only [landInput]
    split
    · exact same
    · exact ⟨rfl, rfl, rfl, rfl, rfl, rfl, rfl, rfl, rfl, rfl, fun _ _ _ => rfl, fun j hj hr => hm _ _ _ j hj hr⟩
  | command w =>
    simp only [landInput, dropCommand]
    split <;> exact ⟨rfl, rfl, rfl, rfl, rfl, rfl, rfl, rfl, rfl, rfl, fun _ _ _ => rfl, fun _ _ _ => rfl⟩
  | _ => exact ⟨rfl, rfl, rfl, rfl, rfl, rfl, rfl, rfl, rfl, rfl, fun _ _ _ => rfl, fun _ _ _ => rfl⟩

/-- Two states with the same bus are idle together (R139). -/
theorem BusIdle.of_sameBus {u v : State} (h : SameBus u v) (hp : PinsWf v) (hb : BusIdle v) : BusIdle u := by
  constructor
  · rw [h.csr, h.out _ hp.csr (.inl rfl)]; exact hb.csr
  · rw [h.csw, h.out _ hp.csw (.inr (.inl rfl))]; exact hb.csw
  · rw [h.mode, h.params, h.out _ hp.mode (.inr (.inr (.inl rfl)))]; exact hb.mode
  · rw [h.reset, h.params, h.out _ hp.reset (.inr (.inr (.inr rfl)))]; exact hb.reset
  · rw [h.csr, h.dir _ hp.csr (.inl rfl)]; exact hb.csrOut
  · rw [h.csw, h.dir _ hp.csw (.inr (.inl rfl))]; exact hb.cswOut
  · rw [h.mode, h.dir _ hp.mode (.inr (.inr (.inl rfl)))]; exact hb.modeOut
  · rw [h.reset, h.dir _ hp.reset (.inr (.inr (.inr rfl)))]; exact hb.resetOut
  · rw [h.int, h.intDir]; exact hb.intIn
  · rw [h.ddir]; exact hb.ddir

/-- Induction over a command that nothing interrupts: each step performed, the end, and the wait (R7). -/
theorem runOps_quiet_induct {P : List MicroOp → State → Prop} {Q : State → Prop}
    (step : ∀ op rest s, P (op :: rest) s → P rest (perform op s))
    (done : ∀ s, P [] s → Q { s with todo := [] })
    (wait : ∀ rest s, P (.windowWait :: rest) s → (pollInt s).waitInt = true →
      Q { pollInt s with todo := .windowWait :: rest })
    (ops : List MicroOp) (s : State) (h : P ops s) (hi : hostWaits s.inputs = true) (ha : s.arst = false) :
    Q (runOps ops s) := by
  induction ops generalizing s with
  | nil => exact done s h
  | cons op rest ih =>
    rw [runOps]
    simp only [landInputs_of_waits hi, ha, Bool.false_eq_true, ↓reduceIte]
    split
    · rename_i hc
      obtain ⟨rfl, hw⟩ := hc
      exact wait _ _ h hw
    · exact ih _ (step _ _ _ h) (by simpa using hi) (by simpa using ha)

/-- A part of the state that every step of a list keeps is kept by running the list. -/
theorem runOps_quiet_keeps {α : Type} (f : State → α) (ops : List MicroOp) (s : State)
    (hi : hostWaits s.inputs = true) (ha : s.arst = false) (ht : ∀ s l, f { s with todo := l } = f s)
    (h : ∀ op ∈ ops, ∀ u, f (perform op u) = f u) : f (runOps ops s) = f s := by
  refine runOps_quiet_induct (P := fun ops u => (∀ op ∈ ops, ∀ u, f (perform op u) = f u) ∧ f u = f s)
    (Q := fun t => f t = f s) ?_ ?_ ?_ ops s ⟨h, rfl⟩ hi ha
  · rintro op rest u ⟨h1, h2⟩
    exact ⟨fun o ho => h1 o (by simp [ho]), (h1 op (by simp) u).trans h2⟩
  · rintro u ⟨-, h2⟩
    exact (ht _ _).trans h2
  · rintro rest u ⟨h1, h2⟩ -
    exact ((ht _ _).trans (h1 .windowWait (by simp) u)).trans h2

end Sys2Proof.Machine
end

