-- ==== Sys2Proof/Laws/Memory.lean ====
section
/-! SUPPORT. The laws of byte memories: read after write, and the canonical form. -/

namespace Sys2Proof.Machine

/-- A written byte reads back. -/
@[simp] theorem Memory.read?_write_same (m : Memory) (a : Nat) (v : Byte) : (m.write a v).read? a = some v := by
  induction m with
  | nil => simp [Memory.write, Memory.read?]
  | cons c m ih =>
    obtain ⟨b, u⟩ := c
    rw [Memory.write]
    split
    · simp [Memory.read?]
    · split
      · simp [Memory.read?]
      · simp [Memory.read?, *]

/-- A write leaves every other address alone. -/
theorem Memory.read?_write_other (m : Memory) {a b : Nat} (v : Byte) (h : b ≠ a) :
    (m.write a v).read? b = m.read? b := by
  induction m with
  | nil => simp [Memory.write, Memory.read?, h]
  | cons c m ih =>
    obtain ⟨d, u⟩ := c
    rw [Memory.write]
    split
    · simp [Memory.read?, h]
    · split
      · subst_vars; simp [Memory.read?, h]
      · simp [Memory.read?, ih]

theorem Memory.read?_write (m : Memory) (a b : Nat) (v : Byte) :
    (m.write a v).read? b = if b = a then some v else m.read? b := by
  split
  · subst_vars; simp
  · exact Memory.read?_write_other m v ‹_›

theorem Memory.wfFrom_write {size lo : Nat} {m : Memory} {a : Nat} (v : Byte)
    (h : Memory.wfFrom size lo m = true) (hlo : lo ≤ a) (ha : a < size) : Memory.wfFrom size lo (m.write a v) = true := by
  induction m generalizing lo with
  | nil => simp [Memory.write, Memory.wfFrom, hlo, ha]
  | cons c m ih =>
    obtain ⟨b, u⟩ := c
    simp only [Memory.wfFrom, Bool.and_eq_true, decide_eq_true_eq] at h
    rw [Memory.write]
    split
    · simp only [Memory.wfFrom, Bool.and_eq_true, decide_eq_true_eq]
      exact ⟨⟨hlo, ha⟩, ⟨by omega, h.1.2⟩, h.2⟩
    · split
      · simp only [Memory.wfFrom, Bool.and_eq_true, decide_eq_true_eq]
        subst_vars
        exact ⟨⟨hlo, ha⟩, h.2⟩
      · simp only [Memory.wfFrom, Bool.and_eq_true, decide_eq_true_eq]
        exact ⟨h.1, ih h.2 (by omega)⟩

/-- A write inside the memory keeps the canonical form. -/
theorem Memory.wf_write {size : Nat} {m : Memory} {a : Nat} (v : Byte) (h : m.wf size = true) (ha : a < size) :
    (m.write a v).wf size = true := Memory.wfFrom_write v h (Nat.zero_le a) ha

/-- The memory with nothing listed is canonical. -/
theorem Memory.wf_nil (size : Nat) : Memory.wf size [] = true := rfl

/-- A host write keeps HOSTMEM canonical. -/
theorem Memory.wf_hostWrite {m : Memory} (a : HostAddr) (v : Byte) (h : m.wf hostMemSize = true) :
    (m.hostWrite a v).wf hostMemSize = true := Memory.wf_write v h a.isLt

/-- A VRAM write keeps VRAM canonical. -/
theorem Memory.wf_vramWrite {m : Memory} (a : VramAddr) (v : Byte) (h : m.wf vramSize = true) :
    (m.write a.toNat v).wf vramSize = true := Memory.wf_write v h a.isLt

/-- HOSTMEM: a byte written reads back. -/
@[simp] theorem Memory.hostRead_hostWrite_same (m : Memory) (a : HostAddr) (v : Byte) :
    (m.hostWrite a v).hostRead a = v := by simp [Memory.hostRead, Memory.hostWrite]

/-- HOSTMEM: a write leaves every other byte alone. -/
theorem Memory.hostRead_hostWrite_other (m : Memory) {a b : HostAddr} (v : Byte) (h : b ≠ a) :
    (m.hostWrite a v).hostRead b = m.hostRead b := by
  have hn : b.toNat ≠ a.toNat := fun e => h (BitVec.eq_of_toNat_eq e)
  simp [Memory.hostRead, Memory.hostWrite, Memory.read?_write_other m v hn]

end Sys2Proof.Machine
end

