-- ==== Sys2Proof/Laws/PerInstr.lean ====
section
/-! SUPPORT. What holds of every command, one lemma per constructor: its word carries its opcode (R90, R94) and a zero
reserved byte. -/

namespace Sys2Proof

/-- The opcode field of a word built as opcode, reserved byte, operand fields (R90). -/
theorem opcodeOf_word (op : Opcode) (p : BitVec 48) : opcodeOf (op ++ 0#8 ++ p) = op := by
  apply BitVec.eq_of_getLsbD_eq
  intro k hk
  simp only [opcodeOf, field, BitVec.getLsbD_extractLsb', hk, decide_true, Bool.true_and, BitVec.getLsbD_append]
  have h1 : ¬ 56 + k < 48 := by omega
  have h2 : ¬ 56 + k - 48 < 8 := by omega
  have h3 : 56 + k - 48 - 8 = k := by omega
  rw [if_neg h1, if_neg h2, h3]

/-- The reserved byte of a word built as opcode, reserved byte, operand fields (R90). -/
theorem reservedByte_word (op : Opcode) (p : BitVec 48) : field (op ++ 0#8 ++ p) 48 8 = 0 := by
  apply BitVec.eq_of_getLsbD_eq
  intro k hk
  simp only [field, BitVec.getLsbD_extractLsb', hk, decide_true, Bool.true_and, BitVec.getLsbD_append]
  have h1 : ¬ 48 + k < 48 := by omega
  have h2 : 48 + k - 48 < 8 := by omega
  rw [if_neg h1, if_pos h2]
  simp

/-- The word of a command carries its opcode and a zero reserved byte (R90). -/
def Laws.EncodedOpcode.Statement (i : Instr) : Prop := opcodeOf (encode i) = i.opcode ∧ field (encode i) 48 8 = 0

theorem Laws.EncodedOpcode.nop :
    Laws.EncodedOpcode.Statement .nop :=
  ⟨opcodeOf_word _ _, reservedByte_word _ _⟩

theorem Laws.EncodedOpcode.cfgPins (csr csw mode rst int : BitVec 4) (pres : BitVec 8) (var : SeqVariant)
    (bpol : BlankPolarity) (dsh : Bool) :
    Laws.EncodedOpcode.Statement (.cfgPins csr csw mode rst int pres var bpol dsh) :=
  ⟨opcodeOf_word _ _, reservedByte_word _ _⟩

theorem Laws.EncodedOpcode.initPorts :
    Laws.EncodedOpcode.Statement .initPorts :=
  ⟨opcodeOf_word _ _, reservedByte_word _ _⟩

theorem Laws.EncodedOpcode.initDevice (md : BitVec 3) (flags : BitVec 8) (txt bg : BitVec 4) :
    Laws.EncodedOpcode.Statement (.initDevice md flags txt bg) :=
  ⟨opcodeOf_word _ _, reservedByte_word _ _⟩

theorem Laws.EncodedOpcode.setMode (md : BitVec 3) :
    Laws.EncodedOpcode.Statement (.setMode md) :=
  ⟨opcodeOf_word _ _, reservedByte_word _ _⟩

theorem Laws.EncodedOpcode.setBlank (b : Bool) :
    Laws.EncodedOpcode.Statement (.setBlank b) :=
  ⟨opcodeOf_word _ _, reservedByte_word _ _⟩

theorem Laws.EncodedOpcode.setIrqEnable (b : Bool) :
    Laws.EncodedOpcode.Statement (.setIrqEnable b) :=
  ⟨opcodeOf_word _ _, reservedByte_word _ _⟩

theorem Laws.EncodedOpcode.setSpriteSize (b : Bool) :
    Laws.EncodedOpcode.Statement (.setSpriteSize b) :=
  ⟨opcodeOf_word _ _, reservedByte_word _ _⟩

theorem Laws.EncodedOpcode.setSpriteMag (b : Bool) :
    Laws.EncodedOpcode.Statement (.setSpriteMag b) :=
  ⟨opcodeOf_word _ _, reservedByte_word _ _⟩

theorem Laws.EncodedOpcode.setTextColor (c : BitVec 4) :
    Laws.EncodedOpcode.Statement (.setTextColor c) :=
  ⟨opcodeOf_word _ _, reservedByte_word _ _⟩

theorem Laws.EncodedOpcode.setBgColor (c : BitVec 4) :
    Laws.EncodedOpcode.Statement (.setBgColor c) :=
  ⟨opcodeOf_word _ _, reservedByte_word _ _⟩

theorem Laws.EncodedOpcode.setRegRaw (idx val : BitVec 8) :
    Laws.EncodedOpcode.Statement (.setRegRaw idx val) :=
  ⟨opcodeOf_word _ _, reservedByte_word _ _⟩

theorem Laws.EncodedOpcode.setAddr (a : VramAddr) (rd : Direction) :
    Laws.EncodedOpcode.Statement (.setAddr a rd) :=
  ⟨opcodeOf_word _ _, reservedByte_word _ _⟩

theorem Laws.EncodedOpcode.bulkWrite (h l m : BitVec 16) :
    Laws.EncodedOpcode.Statement (.bulkWrite h l m) :=
  ⟨opcodeOf_word _ _, reservedByte_word _ _⟩

theorem Laws.EncodedOpcode.bulkRead (h l m : BitVec 16) :
    Laws.EncodedOpcode.Statement (.bulkRead h l m) :=
  ⟨opcodeOf_word _ _, reservedByte_word _ _⟩

theorem Laws.EncodedOpcode.readStatus :
    Laws.EncodedOpcode.Statement .readStatus :=
  ⟨opcodeOf_word _ _, reservedByte_word _ _⟩

theorem Laws.EncodedOpcode.setTableBase (a : VramAddr) (t : BitVec 3) :
    Laws.EncodedOpcode.Statement (.setTableBase a t) :=
  ⟨opcodeOf_word _ _, reservedByte_word _ _⟩

theorem Laws.EncodedOpcode.clearFlags :
    Laws.EncodedOpcode.Statement .clearFlags :=
  ⟨opcodeOf_word _ _, reservedByte_word _ _⟩

end Sys2Proof
end

