-- ==== Sys2Proof/Tests/Slice0.lean ====
section
/-! SUPPORT. Tests. Expected values are those of the worked vectors of 95_test_vectors.md, named in each comment, or are
written out from the encoding tables. The `witness_` theorems show that the hypotheses of the statements can be met. -/

namespace Sys2Proof.Tests

open Sys2Proof.Machine Sys2Proof.Expected

/-! ## Well-formedness: each check refuses an ill-formed command -/

theorem test_wf_mode : (Instr.setMode 4).WellFormed = false ∧ (Instr.setMode 3).WellFormed = true := by decide
theorem test_wf_init_mode : (Instr.initDevice 7 0 0 0).WellFormed = false := by decide
theorem test_wf_table : (Instr.setTableBase 0 5).WellFormed = false ∧ (Instr.setTableBase 0 4).WellFormed = true := by decide
theorem test_wf_register : (Instr.setRegRaw 8 0).WellFormed = false ∧ (Instr.setRegRaw 7 0).WellFormed = true := by decide
theorem test_wf_length : (Instr.bulkWrite 0 0 1).WellFormed = false ∧ (Instr.bulkRead 0 0 1).WellFormed = false := by decide
theorem test_wf_modulus : (Instr.bulkWrite 0 1 0).WellFormed = false ∧ (Instr.bulkRead 0 1 0).WellFormed = false := by decide

/-- CFG_PINS with pins 0, 1, 2, 3, 0 and a presence byte. -/
def cfg (csr csw mode rst int : BitVec 4) (pres : Byte) : Instr :=
  .cfgPins csr csw mode rst int pres .modeFirst .setMeansDisplay false

/-- V-L2-BS-3: an absent port. -/
theorem test_wf_present : (cfg 0 1 2 3 0 0xFE).WellFormed = false ∧ (cfg 0 1 2 3 0 0x7F).WellFormed = false := by decide

/-- V-L2-BS-3: an index at or above PORT_WIDTH, for each pin. -/
theorem test_wf_range :
    (cfg 8 1 2 3 0 0xFF).WellFormed = false ∧ (cfg 0 8 2 3 0 0xFF).WellFormed = false ∧
      (cfg 0 1 8 3 0 0xFF).WellFormed = false ∧ (cfg 0 1 2 8 0 0xFF).WellFormed = false ∧
      (cfg 0 1 2 3 9 0xFF).WellFormed = false := by decide

/-- V-L2-BS-3: two output pins at one index, for each pair. INT may equal an output pin. -/
theorem test_wf_distinct :
    (cfg 0 0 2 3 0 0xFF).WellFormed = false ∧ (cfg 2 1 2 3 0 0xFF).WellFormed = false ∧
      (cfg 3 1 2 3 0 0xFF).WellFormed = false ∧ (cfg 0 2 2 3 0 0xFF).WellFormed = false ∧
      (cfg 0 3 2 3 0 0xFF).WellFormed = false ∧ (cfg 0 1 3 3 0 0xFF).WellFormed = false ∧
      (cfg 0 1 2 3 2 0xFF).WellFormed = true := by decide

/-! ## Decoding: every constructor from a word written out field by field (R91, R94), reserved bits set where there are
any (V-L2-EN-2) -/

theorem test_decode_nop : decode 0x0000FFFFFFFFFFFF = .ok .nop := by decide
theorem test_decode_cfgPins :
    decode 0x010000007FF74567 = .ok (.cfgPins 7 6 5 4 7 0xFF .modeAfterStrobe .setMeansBlanked true) := by decide
theorem test_decode_initPorts : decode 0x0200000000000001 = .ok .initPorts := by decide
theorem test_decode_initDevice : decode 0x030000000000FF03 = .ok (.initDevice 3 0xFF 0 0) := by decide
theorem test_decode_setMode : decode 0x0400000000000009 = .ok (.setMode 1) := by decide
theorem test_decode_setBlank : decode 0x0500000000000003 = .ok (.setBlank true) := by decide
theorem test_decode_setIrqEnable : decode 0x0600000000000002 = .ok (.setIrqEnable false) := by decide
theorem test_decode_setSpriteSize : decode 0x07FF000000000001 = .ok (.setSpriteSize true) := by decide
theorem test_decode_setSpriteMag : decode 0x08000000000000F0 = .ok (.setSpriteMag false) := by decide
theorem test_decode_setTextColor : decode 0x09000000000000F4 = .ok (.setTextColor 4) := by decide
theorem test_decode_setBgColor : decode 0x0A00000000000010 = .ok (.setBgColor 0) := by decide
theorem test_decode_setRegRaw : decode 0x0B000000000109AA = .ok (.setRegRaw 9 0xAA) := by decide
theorem test_decode_setAddr : decode 0x0CFF00000001D234 = .ok (.setAddr 0x1234 .forRead) := by decide
theorem test_decode_setAddr_direction : decode 0x0C00000000021234 = .ok (.setAddr 0x1234 .forWrite) := by decide
theorem test_decode_bulkWrite : decode 0x0DFF020400060007 = .ok (.bulkWrite 0x0204 6 7) := by decide
theorem test_decode_bulkRead : decode 0x0E00030000050002 = .ok (.bulkRead 0x0300 5 2) := by decide
theorem test_decode_readStatus : decode 0x0F00000000000001 = .ok .readStatus := by decide
theorem test_decode_setTableBase : decode 0x1000000000082000 = .ok (.setTableBase 0x2000 0) := by decide
theorem test_decode_clearFlags : decode 0x11FFFFFFFFFFFFFF = .ok .clearFlags := by decide
theorem test_decode_unassigned :
    decode 0x1200000000000000 = .error (.unassignedOpcode 0x12) ∧ decode 0xFF00000000000000 = .error (.unassignedOpcode 0xFF) := by
  decide

/-- V-L2-EN-3 and V-L2-EN-4: words as the host writes them. -/
theorem test_encode :
    encode (.cfgPins 0 1 2 3 0 0xFF .modeAfterStrobe .setMeansDisplay false) = 0x010000001FF03210 ∧
      encode (.cfgPins 0 1 2 3 0 0xFF .modeFirst .setMeansBlanked false) = 0x010000002FF03210 ∧
      encode (.cfgPins 0 1 2 3 0 0xFF .modeFirst .setMeansDisplay true) = 0x010000004FF03210 ∧
      encode (.bulkWrite 0x0204 6 6) = 0x0D00020400060006 := by decide

/-- The table's numbering: bit 0 is the least significant bit of the one word. -/
theorem test_decodeTableWord :
    decodeTableWord 64 0x0400000000000003 = some (.setMode 3) ∧ decodeTableWord 64 0x1200000000000000 = none := by decide

/-! ## The test instance S0 and its states -/

/-- S0 with B = 4 and a fixed delay (Common set-up). -/
def s0 : Params := { Params.default with windowBudget := some 4, byteDelay := some 7 }

/-- After reset. -/
def start : State := { State.reset with params := s0 }

/-- After V-L2-BS-2. -/
def configuredState : State := { start with configured := true, idxCsw := 1, idxMode := 2, idxReset := 3 }

/-- After V-L2-BS-5, in GraphicsI with R1MIR = 0xC0, COLMIR = 0xF1, the bases EB, and a status byte to come. -/
def ready : State :=
  { configuredState with
    portsInit := true
    ctrlOut := 0x0B
    ctrlDir := 0x0F
    ddir := 0xFF
    curMode := .graphicsI
    r1mir := 0xC0
    colmir := 0xF1
    tbase := ⟨0x1800, 0x2000, 0x0000, 0x1B00, 0x3800⟩
    dinScript := [0x9F] }

/-- `ready` with the gate open (R1MIR = 0xE0) and levels of the INT pin to come. -/
def gated (levels : List Bool) : State := { ready with r1mir := 0xE0, intScript := levels }

/-- A reference VDP that takes a data frame, with a cursor and a direction. -/
def refVdp (c : VramAddr) (d : Direction) (vram : Memory) : RefVdp :=
  { vreg := Vector.replicate 8 0, vram := vram, cursor := some c, dirn := some d, ff := false, latch := 0, intFlag := false,
    isolated := true }

/-- The next state of an outcome. -/
def next? (o : Host.Outcome State Fault Refusal) : Option State :=
  match o with
  | .next t => some t
  | _ => none

/-- A view of the state a command leaves. -/
def view {α : Type} (f : State → α) (i : Instr) (s : State) : Option α := (next? (exec i s)).map f

/-- The frames of a command, from its events. -/
def frames (i : Instr) (s : State) : Option (List Frame) := view (fun t => framesFrom s.walk (newEvents s t)) i s

/-- Bytes sent with the mode line asserted. -/
def framing (bs : List Byte) : List Frame := bs.map fun b => ⟨.write, true, b⟩

/-! ## One step of each command -/

/-- HK-1, HK-12. -/
theorem test_nop : view (fun t => (t.status, t.result)) .nop start = some (0x0800, 0) := by decide
theorem test_nop_keeps_partial :
    view (fun t => (t.partialFlag, t.pacedFlag)) .nop { start with partialFlag := true, pacedFlag := true } =
      some (true, true) := by decide

/-- V-L2-BS-2. -/
theorem test_cfgPins : view (fun t => (t.status, t.pincfg, t.trace)) (cfg 0 1 2 3 0 0xFF) start =
    some (0x0802, 0x80003210, []) := by decide
/-- V-L2-BS-4. -/
theorem test_cfgPins_once : view (fun t => (t.noopFlag, t.pincfg)) (cfg 4 5 6 7 0 0xFF) configuredState =
    some (true, 0x80003210) := by decide

/-- V-L2-BS-5. -/
theorem test_initPorts : view (fun t => (t.trace.reverse, t.status)) .initPorts configuredState =
    some ([.ctrl 0x02, .ctrl 0x03, .ctrl 0x03, .ctrl 0x0B, .ctrlDir 0x0F, .intDir 0x00, .ddir 0xFF], 0x0806) := by decide
/-- V-L2-BS-6. -/
theorem test_initPorts_noop : view (fun t => (t.trace, t.status)) .initPorts start = some ([], 0x0880) := by decide

/-- V-L2-BS-5 and P1 step 2, R132: an undriven strobe shows no frame; one the host had driven low, with the mode line
asserted, shows the end of that pulse, which the adapter has not emitted (R111; log 10). -/
theorem test_initPorts_frames :
    frames .initPorts configuredState = some [] ∧
      frames .initPorts { configuredState with ctrlOut := 0x04, ctrlDir := 0xFF, dout := 0x5A } =
        some [⟨.write, true, 0x5A⟩] ∧
      view (emittedFrames { configuredState with ctrlOut := 0x04, ctrlDir := 0xFF }) .initPorts
        { configuredState with ctrlOut := 0x04, ctrlDir := 0xFF } = some [] := by decide

/-- R77, R132: an attached reference VDP takes that byte as the first of a pair. -/
theorem test_initPorts_vdp :
    view (fun t => t.vdp.map fun v => (v.ff, v.latch)) .initPorts
      { configuredState with ctrlOut := 0x04, ctrlDir := 0xFF, dout := 0x5A, vdp := some (refVdp 0 .forWrite []) } =
      some (some (true, 0x5A)) := by decide

/-- P1 step 9. -/
theorem test_initDevice : frames (.initDevice 0 0xC0 0xF 0x1) ready =
    some (framing [0x00, 0x80, 0xC0, 0x81, 0x06, 0x82, 0x80, 0x83, 0x00, 0x84, 0x36, 0x85, 0x07, 0x86, 0xF1, 0x87]) := by
  decide
/-- V-L2-RP-5. -/
theorem test_initDevice_mirrors : view (fun t => (t.r1mir, t.colmir, t.curMode)) (.initDevice 3 0xFF 0 0) ready =
    some (0xE7, 0x00, .text) := by decide

/-- V-L2-RP-1. -/
theorem test_setMode_graphicsII : frames (.setMode 1) ready =
    some (framing [0x02, 0x80, 0xC0, 0x81, 0x06, 0x82, 0xFF, 0x83, 0x03, 0x84, 0x36, 0x85, 0x07, 0x86, 0xF1, 0x87]) := by
  decide
/-- V-L1-5. -/
theorem test_setMode_text : frames (.setMode 3) ready =
    some (framing [0x00, 0x80, 0xD0, 0x81, 0x06, 0x82, 0x00, 0x84, 0xF1, 0x87]) := by decide

/-- SE-1. -/
theorem test_setBlank : view (·.r1mir) (.setBlank true) ready = some 0x80 ∧
    frames (.setBlank true) ready = some (framing [0x80, 0x81]) := by decide
/-- SE-4. -/
theorem test_setBlank_polarity :
    view (·.r1mir) (.setBlank false) { ready with blankPol := .setMeansBlanked, r1mir := 0xE0 } = some 0xA0 := by decide

/-- SE-5, SE-6. -/
theorem test_setIrqEnable : frames (.setIrqEnable true) ready = some (framing [0xE0, 0x81]) := by decide
theorem test_setIrqEnable_off : view (·.r1mir) (.setIrqEnable false) (gated []) = some 0xC0 := by decide

/-- SE-7. -/
theorem test_setSpriteSize : view (·.r1mir) (.setSpriteSize true) { ready with curMode := .text } = some 0xC2 ∧
    frames (.setSpriteSize true) { ready with curMode := .text } = some (framing [0xD2, 0x81]) := by decide

/-- SE-8. -/
theorem test_setSpriteMag : view (·.r1mir) (.setSpriteMag true) { ready with curMode := .bitmap } = some 0xC1 ∧
    frames (.setSpriteMag true) { ready with curMode := .bitmap } = some (framing [0xC9, 0x81]) := by decide

/-- SE-10. -/
theorem test_setTextColor : view (·.colmir) (.setTextColor 4) ready = some 0x41 ∧
    frames (.setTextColor 4) ready = some (framing [0x41, 0x87]) := by decide

/-- SE-11, SE-12. -/
theorem test_setBgColor : frames (.setBgColor 5) ready = some (framing [0xF5, 0x87]) := by decide
theorem test_setBgColor_zero : view (·.colmir) (.setBgColor 0) ready = some 0xF0 := by decide

/-- V-L2-BS-7. -/
theorem test_setRegRaw : view (·.trace.reverse) (.setRegRaw 7 0xF1) ready =
    some [.ctrl 0x0F, .data 0xF1, .ctrl 0x0D, .ctrl 0x0F, .data 0x87, .ctrl 0x0D, .ctrl 0x0F, .ctrl 0x0B] := by decide
/-- V-L2-BS-8. -/
theorem test_setRegRaw_modeAfterStrobe :
    view (·.trace.reverse) (.setRegRaw 7 0xF1) { ready with seqVariant := .modeAfterStrobe } =
      some [.data 0xF1, .ctrl 0x09, .ctrl 0x0D, .ctrl 0x0F, .data 0x87, .ctrl 0x0D, .ctrl 0x0F, .ctrl 0x0B] := by decide

/-- V-L1-2. -/
theorem test_setAddr : frames (.setAddr 0x3FFF .forWrite) ready = some (framing [0xFF, 0x7F]) := by decide
/-- V-L1-2. -/
theorem test_setAddr_read : frames (.setAddr 0x3FFF .forRead) ready = some (framing [0xFF, 0x3F]) := by decide

/-- HOSTMEM of V-L2-BT-1. -/
def twoBytes : Memory := [(0x0100, 0xAA), (0x0101, 0xBB)]

/-- V-L2-BT-1. -/
theorem test_bulkWrite : view (·.trace.reverse) (.bulkWrite 0x0100 3 2) { ready with hostmem := twoBytes } =
    some
      [.hrd 0x0100 0xAA, .data 0xAA, .ctrl 0x09, .ctrl 0x0B, .delay 7, .hrd 0x0101 0xBB, .data 0xBB, .ctrl 0x09,
        .ctrl 0x0B, .delay 7, .hrd 0x0100 0xAA, .data 0xAA, .ctrl 0x09, .ctrl 0x0B, .ctrl 0x0F, .ddir 0x00, .ctrl 0x0E,
        .sampD 0x9F, .ctrl 0x0F, .ddir 0xFF, .ctrl 0x0B] := by decide
/-- V-L2-BT-2. -/
theorem test_bulkWrite_noop :
    view (fun t => (t.noopFlag, t.result, t.partialFlag, t.pacedFlag, t.trace)) (.bulkWrite 0x0100 0 1)
      { ready with partialFlag := true, pacedFlag := true } = some (true, 0, false, false, []) := by decide

/-- V-L2-BT-8: on an isolating board. -/
theorem test_bulkRead :
    view (fun t => (t.hostmem, t.result, t.ddir)) (.bulkRead 0x0300 5 2)
      { ready with
        vdp := some (refVdp 0x0400 .forRead [(0x400, 0x10), (0x401, 0x11), (0x402, 0x12), (0x403, 0x13), (0x404, 0x14)]) } =
      some ([(0x300, 0x14), (0x301, 0x13)], 5, 0xFF) := by decide
/-- V-L2-BT-9, with the oracle's bytes. -/
theorem test_bulkRead_paced :
    view (fun t => (t.hostmem, t.result, t.status)) (.bulkRead 0x0300 10 10)
      { gated [false] with dinScript := [1, 2, 3, 4, 5] } =
      some ([(0x300, 1), (0x301, 2), (0x302, 3), (0x303, 4)], 4, 0x0116) := by decide

/-- V-L2-SR-1. -/
theorem test_readStatus : view (fun t => (t.trace.reverse, t.result, t.vdpstat)) .readStatus ready =
    some ([.ctrl 0x0F, .ddir 0x00, .ctrl 0x0E, .sampD 0x9F, .ctrl 0x0F, .ddir 0xFF, .ctrl 0x0B], 0x009F, 0x9F) := by decide
/-- V-L2-SR-2, V-L2-SR-4. -/
theorem test_readStatus_variant :
    view (·.trace.reverse) .readStatus { ready with seqVariant := .modeAfterStrobe, ddir := 0x0F } =
      some [.ddir 0x00, .ctrl 0x0A, .ctrl 0x0E, .sampD 0x9F, .ctrl 0x0F, .ddir 0x0F, .ctrl 0x0B] := by decide

/-- HK-5. -/
theorem test_setTableBase : view (fun t => (t.tbase, t.status)) (.setTableBase 0x1800 0) configuredState =
    some (⟨0x1800, 0, 0, 0, 0⟩, 0x0802) := by decide
/-- HK-6. -/
theorem test_setTableBase_id : view (fun t => (t.tbase, t.noopFlag)) (.setTableBase 0x1234 5) configuredState =
    some (⟨0, 0, 0, 0, 0⟩, true) := by decide

/-- HK-8. -/
theorem test_clearFlags : view (·.status) .clearFlags { ready with ovr := true, ill := true, noopFlag := true } =
    some 0x0006 := by decide

/-! ## Steps of the machine -/

/-- The first instruction after reset, as the host presents it. -/
theorem test_withFetchWord :
    (next? (step (State.reset.withFetchWord 64 0x010000000FF03210))).map (fun t => (t.status, t.inputs)) =
      some (0x0802, []) := by decide

/-- HK-7. -/
theorem test_step_unassigned : (next? (step (ready.withFetchWord 64 0x1200000000000000))).map (fun t => (t.status, t.trace)) =
    some (0x00C6, []) := by decide

/-- The state of V-L2-BT-3 during its wait: the last two samples still to come. -/
def waiting : State :=
  { gated [true, false] with busy := true, p := true, waitInt := true, todo := waitingOps ready 10 (writeByte 0x0200 10) }

/-- V-L2-BT-3: the host's read of STATUS during the wait. -/
theorem test_wait_status : waiting.status = 0x000F := by decide
/-- HK-9: a command written during the wait is dropped, and the wait goes on. -/
theorem test_wait_overrun :
    (next? (step { waiting with inputs := [.command 0] })).map (fun t => (t.ovr, t.busy, t.waitInt, t.trace)) =
      some (true, true, true, [.sampI true]) := by decide
/-- V-L2-BT-3: the end of the wait. -/
theorem test_wait_end :
    (next? (step { waiting with intScript := [false], hostmem := [(0x200, 0x10), (0x201, 0x11), (0x202, 0x12), (0x203, 0x13)] })).map
        (fun t => (t.result, t.status, t.trace.length)) = some (4, 0x0116, 24) := by decide
/-- V-L2-BT-11: adapter reset ends the wait. -/
theorem test_wait_reset :
    (next? (step { waiting with inputs := [.arst true] })).map (fun t => (t.status, t.ctrlOut, t.busy, t.arst)) =
      some (0x0800, 0, false, true) := by decide

/-- R301: a BULK_READ that reset aborts after two bytes; its two bytes stay, and RESULT does not show them. -/
theorem test_abort_keeps_hostmem :
    view (fun t => (t.hostmem, t.result, t.status)) (.bulkRead 0x0300 5 5)
      { ready with dinScript := [1, 2, 3], inputs := List.replicate 13 .advance ++ [.arst true, .advance] } =
      some ([(0x300, 1), (0x301, 2)], 0, 0x0800) := by decide

/-- R317: the host reads the first byte of a BULK_READ before it is stored, after it is stored, and stale; and once the
command has ended, when no read is stale (R74). -/
theorem test_host_reads_during_bulk_read :
    view (fun t => t.memReads.map fun r => r.2) (.bulkRead 0x0300 2 2)
      { ready with
        hostmem := [(0x300, 0xEE)], hostmemBefore := [(0x300, 0xEE)], dinScript := [1, 2]
        inputs := List.replicate 6 .advance ++
          [.memRead 0x0300 false, .advance, .memRead 0x0300 false, .memRead 0x0300 true, .waitIdle] } =
      some [0xEE, 1, 0xEE] ∧
    (landInput (.memRead 0x0300 true) { ready with hostmem := [(0x300, 1)], hostmemBefore := [(0x300, 0xEE)] }).memReads =
      [(0x0300, 1)] := by decide

/-- R317: the host changes a byte of a BULK_WRITE's buffer while it runs; the adapter reads what is there at its HRd. -/
theorem test_host_writes_during_bulk_write :
    view (fun t => t.trace.reverse.filter fun e => match e with | .hrd _ _ => true | _ => false) (.bulkWrite 0x0100 2 2)
      { ready with
        hostmem := twoBytes, hostmemBefore := twoBytes
        inputs := List.replicate 5 .advance ++ [.memWrite 0x0100 0x11, .memWrite 0x0101 0x22, .waitIdle] } =
      some [.hrd 0x0100 0xAA, .hrd 0x0101 0x22] := by decide

/-- V-L2-BS-9. -/
theorem test_host_writes :
    (landInput (.ctrlWrite 0xFF 0x55) ready).ctrlOut = 0x5B ∧
      (landInput (.ctrlWrite 0x0F 0x00) (landInput (.ctrlWrite 0xFF 0x55) ready)).ctrlOut = 0x5B ∧
      (landInput (.ctrlDirWrite 0xF0 0xF0) ready).ctrlDir = 0xFF ∧
      (landInput (.ctrlWrite 0xFF 0xFF) start).ctrlOut = 0xFF := by decide

/-- R313: the three continuations of V-L1-8 and P3, and a case with none. -/
theorem test_continue :
    (Transfer.mk 0 0x200 10 10).continue? 4 = some ⟨4, 0x204, 6, 6⟩ ∧
      (Transfer.mk 0x3FFF 0x100 10 1).continue? 4 = some ⟨3, 0x100, 6, 1⟩ ∧
      (Transfer.mk 0 0x100 10 4).continue? 4 = some ⟨4, 0x100, 6, 4⟩ ∧
      (Transfer.mk 0 0x100 10 3).continue? 4 = none := by decide

/-- R107: the spec's example lines. -/
theorem test_assembly :
    assembly (.setAddr 0x1234 .forRead) = "SET_ADDR 0x1234, read" ∧ assembly (.setMode 3) = "SET_MODE Text" ∧
      assembly (.initDevice 0 0xC0 0xF 0x1) = "INIT_DEVICE GraphicsI, 0xC0, 0xF, 0x1" := by decide

/-! ## Witnesses: the hypotheses of the statements can be met -/

theorem witness_params : s0.Wf := by constructor <;> decide
theorem witness_params_default : Params.default.Wf := by constructor <;> decide

theorem witness_quiet : Quiet start ∧ start.configured = false ∧ gReady start = false ∧ start.arst = false :=
  ⟨⟨by decide, by decide⟩, by decide⟩

/-- Configured, ports not yet initialised. -/
theorem witness_configured : Quiet configuredState ∧ PinsWf configuredState ∧ configuredState.configured = true ∧
    gReady configuredState = false :=
  ⟨⟨by decide, by decide⟩, by constructor <;> decide, by decide⟩

theorem ready_idle : BusIdle ready := by constructor <;> decide
theorem ready_pins : PinsWf ready := by constructor <;> decide
theorem witness_ready : Ready ready := ⟨⟨by decide, by decide⟩, by decide, by decide, ready_pins, ready_idle⟩

/-- A state is ready that differs from `ready` in fields Ready does not read. -/
theorem ready_of {s : State} (h1 : s.walk = ready.walk) (h2 : s.inputs = []) (h3 : s.arst = false)
    (h4 : (s.portsInit, s.idxReset, s.idxInt) = (true, 3#4, 0#4)) (h5 : (s.params, s.intDir, s.ddir) = (s0, 0#8, 0xFF#8)) :
    Ready s := by
  simp only [State.walk, Walk.mk.injEq] at h1
  obtain ⟨a, b, c, d, -, e, f, -⟩ := h1
  simp only [Prod.mk.injEq] at h4 h5
  obtain ⟨g, h, i⟩ := h4
  obtain ⟨j, k, l⟩ := h5
  exact ⟨⟨by rw [h2]; rfl, h3⟩, a, g, ready_pins.of_eq b c d h i, ready_idle.of_eq b c d h i e f k l j⟩

/-- InitPortsMakesTheBusIdle, OnlyLegalFramesAreEmitted: ports not yet initialised, with a pulse of the host's and without,
and initialised. -/
theorem witness_ports : (configuredState.portsInit = false ∧ hostPulse configuredState = []) ∧
    hostPulse { configuredState with ctrlDir := 0x02 } = [⟨.write, false, 0⟩] ∧
    hostPulse { configuredState with ctrlDir := 0x02, ctrlOut := 0x02 } = [] ∧ ready.portsInit = true := by decide

/-- Ready and with the host waiting (R108). -/
theorem witness_ready_waits : Ready { ready with inputs := [.waitIdle] } :=
  ⟨⟨by decide, by decide⟩, by decide, by decide, by constructor <;> decide, by constructor <;> decide⟩

/-- The gate closed: lengths at both ends of their range. -/
theorem witness_unpaced : Ready ready ∧ gate ready = false ∧ 1 ≤ (1#16).toNat ∧ 1 ≤ (65535#16).toNat :=
  ⟨witness_ready, by decide⟩

/-- The gate open, with the awaited level on the pin and without it. -/
theorem witness_paced : Ready (gated [false]) ∧ Ready (gated [true]) :=
  ⟨ready_of rfl rfl rfl rfl rfl, ready_of rfl rfl rfl rfl rfl⟩
theorem witness_level : gate (gated [false]) = true ∧ intLevel (gated [false]) = (gated [false]).params.intWaitLevel ∧
    gate (gated [true]) = true ∧ intLevel (gated [true]) ≠ (gated [true]).params.intWaitLevel := by decide

/-- WaitEndsAtTheLevel: both directions, both levels. -/
theorem witness_wait :
    Ready { gated [false] with busy := true, p := true, todo := waitingOps (gated []) 10 (writeByte 0x0200 10) } ∧
      Ready { gated [true] with busy := true, p := true, todo := waitingOps (gated []) 1 (readByte 0x0200 1) } ∧
      intLevel (gated [false]) = s0.intWaitLevel ∧ intLevel (gated [true]) ≠ s0.intWaitLevel :=
  ⟨ready_of rfl rfl rfl rfl rfl, ready_of rfl rfl rfl rfl rfl, by decide⟩

/-- The invariant of a state that is configured, initialised and idle. -/
theorem witness_inv_ready : MachineInv ready :=
  { params := witness_params
    hostmem := by decide
    hostmemBefore := by decide
    unwritten := fun _ => by decide
    vram := fun _ h => nomatch h
    pins := fun _ => ready_pins
    ports := fun _ => by decide
    undriven := fun h => absurd h (by decide)
    idle := fun _ => ready_idle
    mirror := by decide
    position := .idle (by decide) (by decide) rfl
    held := fun h => absurd h (by decide) }

/-- The invariant of a state in its window wait; `waiting` with the host's next operations, and levels to come. -/
theorem witness_inv_waiting (l : List Input) (levels : List Bool) :
    MachineInv { waiting with inputs := l, intScript := levels } :=
  { params := witness_params
    hostmem := rfl
    hostmemBefore := rfl
    unwritten := fun _ => rfl
    vram := fun _ h => nomatch h
    pins := fun _ => ready_pins.of_eq rfl rfl rfl rfl rfl
    ports := fun _ => rfl
    undriven := fun h => nomatch h
    idle := fun _ => ready_idle.of_eq rfl rfl rfl rfl rfl rfl rfl rfl rfl rfl
    mirror := show waiting.r1mir &&& waiting.params.r1ModeMask = 0 from by decide
    position := .waitingWrite 0x0200 10 10 rfl rfl rfl rfl (by decide) rfl
    held := fun h => nomatch h }

/-- A step of a state with the invariant, for the statements over all steps: a command, and reset. -/
theorem witness_step_command : ∃ s t, MachineInv s ∧ s.inputs = [.command 0x1000000000011234] ∧ step s = .next t ∧
    s.configured = true ∧ t.tbase.colour = 0x1234 :=
  ⟨{ ready with inputs := [.command 0x1000000000011234] }, _,
    { witness_inv_ready with
      pins := fun _ => ready_pins.of_eq rfl rfl rfl rfl rfl
      idle := fun _ => ready_idle.of_eq rfl rfl rfl rfl rfl rfl rfl rfl rfl rfl
      position := .idle (by decide) (by decide) rfl
      held := fun h => absurd h (by decide) },
    rfl, rfl, rfl, by decide⟩
theorem witness_step_reset : ∃ t, step { waiting with inputs := [.arst true] } = .next t ∧ t.arst = true := ⟨_, rfl, rfl⟩

/-- CommandWhileBusyIsDropped. -/
theorem witness_overrun : MachineInv { waiting with inputs := [.command 0x1100000000000000], intScript := [true] } ∧
    waiting.busy = true ∧ waiting.arst = false := ⟨witness_inv_waiting _ _, by decide⟩

/-- WindowWaitHasNoTimeout. -/
theorem witness_endless :
    MachineInv { waiting with inputs := [], intScript := List.replicate 3 (!s0.intWaitLevel) } ∧ waiting.waitInt = true ∧
      waiting.vdp = none := ⟨witness_inv_waiting _ _, by decide⟩

/-- ResetAbortsTheRunningCommand. -/
theorem witness_abort : waiting.busy = true ∧ waiting.arst = false ∧ ∃ op rest, waiting.todo = op :: rest :=
  ⟨by decide, by decide, _, _, rfl⟩

/-- HeldInResetNoCommandIsAccepted. -/
theorem witness_held : MachineInv (landInput (.arst true) start) ∧ (landInput (.arst true) start).arst = true :=
  ⟨{ params := witness_params
     hostmem := by decide
     hostmemBefore := by decide
     unwritten := fun _ => rfl
     vram := fun _ h => nomatch h
     pins := fun h => absurd h (by decide)
     ports := fun h => absurd h (by decide)
     undriven := fun _ => rfl
     idle := fun h => absurd h (by decide)
     mirror := by decide
     position := .idle (by decide) (by decide) rfl
     held := fun _ => rfl }, by decide⟩

/-- StepRunsTheDecodedCommand, UnassignedOpcodeSetsIllAndIsANoop: a word at the port, the first and the last unassigned
opcode. -/
theorem witness_word : (presentCommand 0x0400000000000003 ready).inputs = .command 0x0400000000000003 :: [] ∧
    hostWaits [] = true ∧ (presentCommand 0 ready).busy = false ∧ (presentCommand 0 ready).arst = false ∧
    0x12 ≤ bits 0x1200000000000000 63 56 ∧ 0x12 ≤ bits 0xFF00000000000000 63 56 ∧
    bits 0x1100000000000000 63 56 ≤ 0x11 := by decide

/-- OperandsAreTheListedBits, OpcodeAloneSelectsTheCommand: each opcode has a word. -/
theorem witness_opcodes :
    [bits 0x0000000000000000 63 56, bits 0x0100000000000000 63 56, bits 0x0200000000000000 63 56,
      bits 0x03FF000000000000 63 56, bits 0x0400000000000000 63 56, bits 0x0500000000000000 63 56,
      bits 0x0600000000000000 63 56, bits 0x0700000000000000 63 56, bits 0x0800000000000000 63 56,
      bits 0x0900000000000000 63 56, bits 0x0A00000000000000 63 56, bits 0x0B00000000000000 63 56,
      bits 0x0C00000000000000 63 56, bits 0x0D00000000000000 63 56, bits 0x0E00000000000000 63 56,
      bits 0x0F00000000000000 63 56, bits 0x1000000000000000 63 56, bits 0x11FFFFFFFFFFFFFF 63 56] =
    List.range 18 := by decide

/-- ReservedBitsHaveNoEffect: two words that differ in reserved bits alone (V-L2-EN-2). -/
theorem witness_reserved : (0x0CFF00000002D234#64 ^^^ 0x0C00000000001234#64) &&& listedBits (opcodeOf 0x0CFF00000002D234) = 0 ∧
    (0x0CFF00000002D234#64 ≠ 0x0C00000000001234#64) := by decide

/-- FailedGuardIsASilentNoop, PassedGuardFinishes: each command's guard at its boundary. -/
theorem witness_guards :
    guardHolds ready (.setTableBase 0 4) = true ∧ guardHolds ready (.setTableBase 0 5) = false ∧
      guardHolds ready (.setRegRaw 7 0) = true ∧ guardHolds ready (.setRegRaw 8 0) = false ∧
      guardHolds ready (.setMode 3) = true ∧ guardHolds ready (.setMode 4) = false ∧
      guardHolds ready (.bulkWrite 0 1 1) = true ∧ guardHolds ready (.bulkWrite 0 0 1) = false ∧
      guardHolds ready (.bulkRead 0 1 1) = true ∧ guardHolds ready (.bulkRead 0 1 0) = false ∧
      guardHolds start (cfg 0 1 2 3 2 0xFF) = true ∧ guardHolds ready (cfg 0 1 2 3 2 0xFF) = false ∧
      guardHolds start .readStatus = false ∧ guardHolds start .initPorts = false ∧
      guardHolds configuredState (.setAddr 0 .forRead) = false := by decide

/-- The operand ranges of the single statements, at their boundaries. -/
theorem witness_ranges : (7#8).toNat ≤ 7 ∧ 8 ≤ (8#8).toNat ∧ 8 ≤ (255#8).toNat ∧ 4 ≤ (4#3).toNat ∧ 4 ≤ (7#3).toNat ∧
    5 ≤ (5#3).toNat ∧ 5 ≤ (7#3).toNat ∧ (3#3, Mode.text) ∈ [(0#3, Mode.graphicsI), (1#3, .graphicsII), (2#3, .bitmap), (3#3, .text)] := by
  decide

/-- PacedCountIsCappedByTheBudget: more and not more than the budget. -/
theorem witness_budget : s0.budget.toNat < (5#16).toNat ∧ ¬s0.budget.toNat < (4#16).toNat := by decide

/-- AdapterKeepsTheHostsBits: a bit outside ROLE_MASK, a command that completes, and a wait that does. -/
theorem witness_host_bit : ready.roleMask.getLsbD 4 = false ∧ ready.roleMask.getLsbD 3 = true ∧
    (∃ t, exec (.setAddr 0 .forRead) ready = .next t) ∧ hostWaits [] = true ∧
    ∃ t, step { waiting with inputs := [], intScript := [false] } = .next t ∧ t.busy = false :=
  ⟨by decide, by decide, ⟨_, rfl⟩, rfl, _, rfl, by decide⟩

/-- HostWritesChangeNoFrame: host writes inside a framing pair. -/
theorem witness_host_writes :
    (∃ t, exec (.setAddr 0x1234 .forWrite) { ready with inputs := [.advance, .ctrlWrite 0xFF 0x55, .ctrlDirWrite 0xF0 0xF0] } =
        .next t ∧ t.ctrlOut = 0x5B ∧ t.trace.length = 10) ∧
      ∃ t, exec (.setAddr 0x1234 .forWrite) { ready with inputs := [] } = .next t ∧ t.trace.length = 8 :=
  ⟨⟨_, rfl, by decide, by decide⟩, _, rfl, by decide⟩

/-- HostWritesChangeNoFrame: host writes around CFG_PINS, when no pin has its role yet, and in the rest of a burst after its
window wait. -/
theorem witness_host_writes_early :
    (∃ t, exec (cfg 0 1 2 3 0 0xFF) { start with inputs := [.ctrlWrite 0xFF 0x00, .advance, .ctrlDirWrite 0xFF 0xFF] } =
        .next t ∧ t.configured = true ∧ t.trace.length = 2) ∧
      ∃ t, step { waiting with inputs := [.ctrlWrite 0xFF 0x50, .advance, .ctrlWrite 0xFF 0x00], intScript := [false] } =
        .next t ∧ t.busy = false ∧ t.trace.length = 26 :=
  ⟨⟨_, rfl, by decide⟩, _, rfl, by decide⟩

/-- EquivalentTracesShowTheSameFrames: a register event that changes nothing is dropped; a delay is not. -/
theorem witness_equivalent :
    traceEquivalent ready.ports [.ctrl 0x0B, .ctrl 0x09, .ctrl 0x0B] [.ctrl 0x09, .ctrl 0x0B, .ctrl 0x0B] = true ∧
      (ready.walk.ctrl = ready.ports.ctrlOut ∧ ready.walk.dir = ready.ports.ctrlDir ∧ ready.walk.dout = ready.ports.dout) ∧
      framesFrom ready.walk [.ctrl 0x09, .ctrl 0x0B] = [⟨.write, false, 0⟩] ∧
      emittedFrom ready.walk false [.ctrl 0x09, .data 0x11, .ctrl 0x0B] = [⟨.write, false, 0x11⟩] ∧
      traceEquivalent ready.ports [.delay 1] [] = false := by decide

/-- ContinuationCarriesThePattern: where the cases begin and end, and where two of them hold at once: L = M, M dividing N,
N = 0, M = 1 = L, and just outside. -/
theorem witness_continue :
    (Transfer.mk 0 0x200 10 10).continue? 9 = some ⟨9, 0x209, 1, 1⟩ ∧
      (Transfer.mk 0 0x200 11 10).continue? 10 = some ⟨10, 0x200, 1, 10⟩ ∧
      (Transfer.mk 0 0x200 11 10).continue? 9 = none ∧
      (Transfer.mk 0 0x200 3 10).continue? 0 = some ⟨0, 0x200, 3, 10⟩ ∧
      (Transfer.mk 0 0x200 1 1).continue? 0 = some ⟨0, 0x200, 1, 1⟩ ∧
      (Transfer.mk 0 0xFFFF 65535 65535).continue? 65534 = some ⟨0x3FFE, 0xFFFD, 1, 1⟩ := by decide

/-- HostMemoryReadsBackWrites: BUSY = 0, BUSY = 1 with old and new bytes apart, a BULK_READ at its first and last byte. -/
theorem witness_host_memory : ready.busy = false ∧ waiting.busy = true ∧ Ready ready ∧ gate ready = false ∧
    ready.hostmemBefore = ready.hostmem ∧ 1 ≤ (5#16).toNat ∧ 5 ≤ (5#16).toNat ∧
    hostMemByte 0x0300 true { waiting with hostmem := [(0x300, 1)], hostmemBefore := [(0x300, 2)] } = 2 ∧
    hostMemByte 0x0300 false { waiting with hostmem := [(0x300, 1)], hostmemBefore := [(0x300, 2)] } = 1 :=
  ⟨by decide, by decide, witness_ready, by decide, by decide, by decide, by decide, by decide, by decide⟩

/-- ReferenceVdpTakesFramingPairs. -/
theorem witness_reference : (refVdp 0 .forWrite []).ff = false := by decide

/-- BulkWriteFillsVideoMemory, BulkReadCopiesVideoMemory: a cursor at the top of VRAM. -/
theorem witness_video :
    Ready { ready with vdp := some (refVdp 0x3FFF .forWrite []) } ∧
      Ready { ready with vdp := some (refVdp 0x3FFF .forRead [(0, 1), (0x3FFF, 2)]) } ∧ ready.dshared = false ∧
      gate ready = false ∧ (refVdp 0x3FFF .forRead [(0, 1), (0x3FFF, 2)]).isolated = true ∧
      (refVdp 0x3FFF .forRead [(0, 1), (0x3FFF, 2)]).vram.read? ((0x3FFF + 1) % 2 ^ 14) = some 1 :=
  ⟨ready_of rfl rfl rfl rfl rfl, ready_of rfl rfl rfl rfl rfl, by decide, by decide, by decide, by decide⟩

/-- A reference VDP that pulls the INT pin low: its flag and its irq-enable bit are set. -/
def interrupting (v : RefVdp) : RefVdp := { v with intFlag := true, vreg := v.vreg.set 1 0x20 }

/-- BurstRuns, in the statements about bursts: a burst that starts unpaced, one that starts paced at the awaited level, and
one that goes on after its wait; each with a reference VDP attached. -/
theorem witness_burst :
    BurstRuns (.bulkWrite 0x0200 10 10) 10 (writeByte 0x0200 10) false ready (exec (.bulkWrite 0x0200 10 10) ready) ∧
      BurstRuns (.bulkRead 0x0200 10 10) 10 (readByte 0x0200 10) true (gated [false])
        (exec (.bulkRead 0x0200 10 10) (gated [false])) ∧
      BurstRuns (.bulkWrite 0x0200 10 10) 10 (writeByte 0x0200 10) true
        { waiting with vdp := some (interrupting (refVdp 0x3FFF .forWrite [])) }
        (step { waiting with vdp := some (interrupting (refVdp 0x3FFF .forWrite [])) }) :=
  ⟨.inl ⟨by decide, by decide, rfl⟩, .inl ⟨by decide, by decide, rfl⟩, .inr ⟨rfl, rfl, rfl, rfl, by decide, rfl⟩⟩

theorem witness_burst_ready :
    Ready { waiting with vdp := some (interrupting (refVdp 0x3FFF .forWrite [])) } ∧
      Ready { gated [] with vdp := some (interrupting (refVdp 0x3FFF .forRead [(0, 1), (0x3FFF, 2)])) } ∧
      intLevel { gated [] with vdp := some (interrupting (refVdp 0x3FFF .forRead [(0, 1), (0x3FFF, 2)])) } = s0.intWaitLevel :=
  ⟨ready_of rfl rfl rfl rfl rfl, ready_of rfl rfl rfl rfl rfl, by decide⟩

/-- EventCountsAreFixed: three samples before the level comes. -/
theorem witness_counts : ∃ u t, exec (.bulkWrite 0x0200 10 10) (gated [true, true, false]) = .next u ∧
    Sys2Proof.core.run 2 u = .next t ∧ t.busy = false ∧ ((newEvents (gated [true, true, false]) t).filter isIntSample).length = 3 ∧
    (newEvents (gated [true, true, false]) t).length = 3 + 4 * 4 + 7 := ⟨_, _, rfl, rfl, by decide, by decide, by decide⟩

/-- ResetAbortsTheRunningCommand: reset before any step of a list, and after the first and the last byte of a BULK_READ. -/
theorem witness_abort_anywhere : ready.arst = false ∧ MicroOp.windowWait ∉ frame2 .modeFirst 0x12 0x34 ∧ Ready ready ∧ gate ready = false ∧
    1 ≤ (5#16).toNat ∧ 5 ≤ (5#16).toNat := ⟨by decide, by decide, witness_ready, by decide, by decide, by decide⟩

/-- ReferenceVdpInterruptAndUndefinedAccess: the flag with and without the enable bit, a cursor that is unknown, and accesses
against the direction. -/
theorem witness_interrupt :
    Ready { ready with vdp := some (interrupting (refVdp 0 .forRead [(0, 1)])) } ∧
      (interrupting (refVdp 0 .forRead [])).intLevel s0 = false ∧
      ({ refVdp 0 .forRead [] with intFlag := true } : RefVdp).intLevel s0 = true ∧
      (refVdp 0 .forRead []).dirn ≠ some .forWrite ∧ (refVdp 0 .forWrite []).dirn ≠ some .forRead ∧
      ({ refVdp 0 .forRead [] with cursor := none } : RefVdp).cursor = none :=
  ⟨ready_of rfl rfl rfl rfl rfl, by decide⟩

/-- StickyFlagsHoldUntilCleared, DeviceStateChangesOnlyByItsCommands: a step that is neither CLEAR_FLAGS nor reset. -/
theorem witness_sticky : ∃ t, step { ready with ovr := true, ill := true, inputs := [.command 0x0500000000000001] } = .next t ∧
    t.ovr = true ∧ t.ill = true ∧ t.r1mir = 0x80 := ⟨_, rfl, by decide⟩

end Sys2Proof.Tests
end

/-! Operands as numbers (R5, R91): a field of the decoder is the number `CW[hi:lo]`. -/

namespace Sys2Proof

open Sys2Proof.Expected

/-- `CW[lo+n-1:lo]` as the decoder reads it, and as a number (R5). -/
theorem toNat_field (w : CommandWord) (lo n : Nat) : (field w lo (n + 1)).toNat = bits w (lo + n) lo := by
  have width : lo + n + 1 - lo = n + 1 := by omega
  rw [field, bits, width, BitVec.extractLsb'_toNat, Nat.shiftRight_eq_div_pow]

/-- A one-bit operand is set exactly when `CW[i]` is the number 1 (R5). -/
theorem fieldBit_iff (w : CommandWord) (i : Nat) : fieldBit w i = true ↔ bits w i i = 1 := by
  have width : i + 1 - i = 1 := by omega
  rw [fieldBit, bits, width, BitVec.getLsbD, Nat.testBit_eq_decide_div_mod_eq, decide_eq_true_iff, pow_one]

/-- OP = CW[63:56] (R90). -/
theorem toNat_opcodeOf (w : CommandWord) : (opcodeOf w).toNat = bits w 63 56 := toNat_field w 56 7

theorem SeqVariant.ofBit_eq_modeAfterStrobe (b : Bool) : SeqVariant.ofBit b = .modeAfterStrobe ↔ b = true := by
  cases b <;> decide

theorem BlankPolarity.ofBit_eq_setMeansBlanked (b : Bool) : BlankPolarity.ofBit b = .setMeansBlanked ↔ b = true := by
  cases b <;> decide

theorem Direction.ofBit_eq_forRead (b : Bool) : Direction.ofBit b = .forRead ↔ b = true := by
  cases b <;> decide

/-- Settles O2: the word's opcode picks the format, and each operand of the format is a field or a bit of the word. -/
theorem operandsAreTheListedBits : Obligations.OperandsAreTheListedBits := by
  intro w
  simp only [← toNat_opcodeOf]
  refine ⟨?cfgPins, ?initDevice, ?setMode, ?setBlank, ?setIrqEnable, ?setSpriteSize, ?setSpriteMag, ?setTextColor,
    ?setBgColor, ?setRegRaw, ?setAddr, ?bulkWrite, ?bulkRead, ?setTableBase⟩ <;> intro op
  case cfgPins =>
    exact ⟨_, _, _, _, _, _, _, _, _, by simp only [decode, op], toNat_field w 0 3, toNat_field w 4 3, toNat_field w 8 3,
      toNat_field w 12 3, toNat_field w 16 3, toNat_field w 20 7,
      (SeqVariant.ofBit_eq_modeAfterStrobe _).trans (fieldBit_iff w 28),
      (BlankPolarity.ofBit_eq_setMeansBlanked _).trans (fieldBit_iff w 29), fieldBit_iff w 30⟩
  case initDevice =>
    exact ⟨_, _, _, _, by simp only [decode, op], toNat_field w 0 2, toNat_field w 8 7, toNat_field w 16 3,
      toNat_field w 20 3⟩
  case setMode => exact ⟨_, by simp only [decode, op], toNat_field w 0 2⟩
  case setBlank => exact ⟨_, by simp only [decode, op], fieldBit_iff w 0⟩
  case setIrqEnable => exact ⟨_, by simp only [decode, op], fieldBit_iff w 0⟩
  case setSpriteSize => exact ⟨_, by simp only [decode, op], fieldBit_iff w 0⟩
  case setSpriteMag => exact ⟨_, by simp only [decode, op], fieldBit_iff w 0⟩
  case setTextColor => exact ⟨_, by simp only [decode, op], toNat_field w 0 3⟩
  case setBgColor => exact ⟨_, by simp only [decode, op], toNat_field w 0 3⟩
  case setRegRaw => exact ⟨_, _, by simp only [decode, op], toNat_field w 8 7, toNat_field w 0 7⟩
  case setAddr =>
    exact ⟨_, _, by simp only [decode, op], toNat_field w 0 13,
      (Direction.ofBit_eq_forRead _).trans (fieldBit_iff w 16)⟩
  case bulkWrite =>
    exact ⟨_, _, _, by simp only [decode, op], toNat_field w 32 15, toNat_field w 16 15, toNat_field w 0 15⟩
  case bulkRead =>
    exact ⟨_, _, _, by simp only [decode, op], toNat_field w 32 15, toNat_field w 16 15, toNat_field w 0 15⟩
  case setTableBase => exact ⟨_, _, by simp only [decode, op], toNat_field w 0 13, toNat_field w 16 2⟩

end Sys2Proof

/-! The machine invariant, step by step: what it says of the registers and the bus apart from the sequencer's position, what
every landing and every step of a command keeps of it, and a running command as a position between two such steps. -/

namespace Sys2Proof.Machine

open Sys2Proof.Expected

/-! ## The parts of the invariant -/

/-- The part of the invariant that holds at every moment, in the middle of a command too. -/
structure Sound (s : State) : Prop where
  params : s.params.Wf
  hostmem : s.hostmem.wf hostMemSize = true
  hostmemBefore : s.hostmemBefore.wf hostMemSize = true
  vram : ∀ v, s.vdp = some v → v.vram.wf vramSize = true
  mirror : s.r1mir &&& s.params.r1ModeMask = 0

/-- The part of the invariant about pins and ports, which a command may break until it ends. -/
structure BusInv (s : State) : Prop where
  pins : s.configured = true → PinsWf s
  ports : s.portsInit = true → s.configured = true
  undriven : s.portsInit = false → s.ddir = 0x00
  idle : s.portsInit = true → BusIdle s

theorem MachineInv.sound {s : State} (h : MachineInv s) : Sound s :=
  ⟨h.params, h.hostmem, h.hostmemBefore, h.vram, h.mirror⟩

theorem MachineInv.busInv {s : State} (h : MachineInv s) : BusInv s := ⟨h.pins, h.ports, h.undriven, h.idle⟩

/-- The invariant put together from its parts, while ARST is released. -/
theorem MachineInv.of_parts {s : State} (sound : Sound s) (bus : BusInv s)
    (unwritten : s.busy = true → s.hostmemBefore = s.hostmem) (position : Position s) (arst : s.arst = false) :
    MachineInv s :=
  { params := sound.params, hostmem := sound.hostmem, hostmemBefore := sound.hostmemBefore, unwritten, vram := sound.vram
    pins := bus.pins, ports := bus.ports, undriven := bus.undriven, idle := bus.idle, mirror := sound.mirror, position
    held := fun h => absurd (arst.symm.trans h) (by decide) }

/-- The registers the invariant of pins and ports reads, and the sequencing variant. -/
structure BusRegs where
  params : Params
  seqVariant : SeqVariant
  configured : Bool
  portsInit : Bool
  idxCsr : BitVec 4
  idxCsw : BitVec 4
  idxMode : BitVec 4
  idxReset : BitVec 4
  idxInt : BitVec 4
  ctrlOut : Byte
  ctrlDir : Byte
  ddir : Byte
  intDir : Byte

/-- Those registers of a state. -/
def State.bus (s : State) : BusRegs where
  params := s.params
  seqVariant := s.seqVariant
  configured := s.configured
  portsInit := s.portsInit
  idxCsr := s.idxCsr
  idxCsw := s.idxCsw
  idxMode := s.idxMode
  idxReset := s.idxReset
  idxInt := s.idxInt
  ctrlOut := s.ctrlOut
  ctrlDir := s.ctrlDir
  ddir := s.ddir
  intDir := s.intDir

/-- Legal pins are a matter of those registers alone. -/
theorem PinsWf.of_bus {s t : State} (h : PinsWf s) (e : t.bus = s.bus) : PinsWf t :=
  h.of_eq (congrArg BusRegs.idxCsr e) (congrArg BusRegs.idxCsw e) (congrArg BusRegs.idxMode e)
    (congrArg BusRegs.idxReset e) (congrArg BusRegs.idxInt e)

/-- The idle bus is a matter of those registers alone. -/
theorem BusIdle.of_bus {s t : State} (h : BusIdle s) (e : t.bus = s.bus) : BusIdle t :=
  h.of_eq (congrArg BusRegs.idxCsr e) (congrArg BusRegs.idxCsw e) (congrArg BusRegs.idxMode e)
    (congrArg BusRegs.idxReset e) (congrArg BusRegs.idxInt e) (congrArg BusRegs.ctrlOut e) (congrArg BusRegs.ctrlDir e)
    (congrArg BusRegs.intDir e) (congrArg BusRegs.ddir e) (congrArg BusRegs.params e)

/-- The invariant of pins and ports is a matter of those registers alone. -/
theorem BusInv.of_bus {s t : State} (h : BusInv s) (e : t.bus = s.bus) : BusInv t := by
  have configured : t.configured = s.configured := congrArg BusRegs.configured e
  have ports : t.portsInit = s.portsInit := congrArg BusRegs.portsInit e
  have ddir : t.ddir = s.ddir := congrArg BusRegs.ddir e
  exact ⟨fun hc => (h.pins (configured ▸ hc)).of_bus e, fun hp => configured.trans (h.ports (ports ▸ hp)),
    fun hp => ddir.trans (h.undriven (ports ▸ hp)), fun hp => (h.idle (ports ▸ hp)).of_bus e⟩

/-! ## The reference VDP's memory -/

theorem RefVdp.wf_writeFrame {v : RefVdp} (framing : Bool) (b : Byte) (h : v.vram.wf vramSize = true) :
    (v.writeFrame framing b).vram.wf vramSize = true := by
  unfold RefVdp.writeFrame
  split
  · split
    · split <;> exact h
    · exact h
  · split
    · exact Memory.wf_vramWrite _ _ h
    · exact Memory.wf_nil _

theorem RefVdp.wf_readFrame {v : RefVdp} (framing : Bool) (h : v.vram.wf vramSize = true) :
    (v.readFrame framing).vram.wf vramSize = true := by
  unfold RefVdp.readFrame
  split
  · exact h
  · split
    · exact h
    · exact Memory.wf_nil _

/-- Whatever event is appended, the VRAM of an attached VDP stays canonical. -/
theorem wf_vdpAfter (w : Walk) (e : Event) {v : Option RefVdp} (h : ∀ u, v = some u → u.vram.wf vramSize = true) :
    ∀ u, vdpAfter w e v = some u → u.vram.wf vramSize = true := by
  intro u hu
  cases v with
  | none => simp [vdpAfter] at hu
  | some v =>
    have hv := h v rfl
    cases hf : w.frameAt e with
    | none => simp only [vdpAfter, hf, Option.some.injEq] at hu; exact hu ▸ hv
    | some f =>
      cases hk : f.kind with
      | write => simp only [vdpAfter, hf, hk, Option.some.injEq] at hu; exact hu ▸ RefVdp.wf_writeFrame _ _ hv
      | read => simp only [vdpAfter, hf, hk, Option.some.injEq] at hu; exact hu ▸ RefVdp.wf_readFrame _ hv

/-! ## What lands -/

/-- What no landing short of ARST changes: the adapter's registers but OVR, CTRL_OUT and CTRL_DIR, as far as the invariant
speaks of them. -/
theorem landInput_keeps {i : Input} (s : State) (hi : i ≠ .arst true) :
    (landInput i s).params = s.params ∧ (landInput i s).busy = s.busy ∧ (landInput i s).waitInt = s.waitInt ∧
    (landInput i s).p = s.p ∧ (landInput i s).todo = s.todo ∧ (landInput i s).seqVariant = s.seqVariant ∧
    (landInput i s).configured = s.configured ∧ (landInput i s).portsInit = s.portsInit ∧
    (landInput i s).idxCsr = s.idxCsr ∧ (landInput i s).idxCsw = s.idxCsw ∧ (landInput i s).idxMode = s.idxMode ∧
    (landInput i s).idxReset = s.idxReset ∧ (landInput i s).idxInt = s.idxInt ∧ (landInput i s).ddir = s.ddir ∧
    (landInput i s).savedDdir = s.savedDdir ∧ (landInput i s).intDir = s.intDir ∧ (landInput i s).r1mir = s.r1mir := by
  cases i with
  | arst b => cases b <;> simp_all [landInput, releaseReset]
  | command w => simp only [landInput, dropCommand]; split <;> simp
  | ctrlWrite m v => simp only [landInput]; split <;> simp [hostCtrlWrite]
  | ctrlDirWrite m v => simp only [landInput]; split <;> simp [hostCtrlDirWrite]
  | _ => simp [landInput, hostMemWrite, hostMemRead]

/-- What lands keeps the memories canonical and the mirror without mode bits (R52). -/
theorem Sound.landInput {s : State} (h : Sound s) {i : Input} (hi : i ≠ .arst true) : Sound (landInput i s) := by
  obtain ⟨params, mem, before, vram, mirror⟩ := h
  cases i with
  | arst b => cases b <;> [exact ⟨params, mem, before, vram, mirror⟩; exact absurd rfl hi]
  | command w => simp only [Machine.landInput, dropCommand]; split <;> exact ⟨params, mem, before, vram, mirror⟩
  | ctrlWrite m v =>
    simp only [Machine.landInput]
    split
    · exact ⟨params, mem, before, vram, mirror⟩
    · exact ⟨params, mem, before, wf_vdpAfter _ _ vram, mirror⟩
  | ctrlDirWrite m v => simp only [Machine.landInput]; split <;> exact ⟨params, mem, before, vram, mirror⟩
  | memWrite a v => exact ⟨params, Memory.wf_hostWrite a v mem, Memory.wf_hostWrite a v before, vram, mirror⟩
  | vdpInterrupt =>
    refine ⟨params, mem, before, fun v hv => ?_, mirror⟩
    obtain ⟨u, hu, rfl⟩ := Option.map_eq_some_iff.mp hv
    exact vram u hu
  | _ => exact ⟨params, mem, before, vram, mirror⟩

/-- A byte the host stores is among the old bytes too (R317): nothing that lands sets the two apart. -/
theorem landInput_unwritten {i : Input} {s : State} (h : s.hostmemBefore = s.hostmem) :
    (landInput i s).hostmemBefore = (landInput i s).hostmem := by
  cases i with
  | arst b => cases b <;> exact h
  | command w => simp only [landInput, dropCommand]; split <;> exact h
  | ctrlWrite m v => simp only [landInput]; split <;> exact h
  | ctrlDirWrite m v => simp only [landInput]; split <;> exact h
  | memWrite a v => simp only [landInput, hostMemWrite, h]
  | _ => exact h

/-! ## Adapter reset -/

/-- Asserting ARST leads from any moment of a run to a state with the invariant (R300, R301). -/
theorem machineInv_assertReset {s : State} (h : Sound s) : MachineInv (assertReset s) where
  params := h.params
  hostmem := h.hostmem
  hostmemBefore := h.hostmemBefore
  unwritten := nofun
  vram := by
    intro v hv
    obtain ⟨u, -, rfl⟩ := Option.map_eq_some_iff.mp hv
    exact Memory.wf_nil _
  pins := nofun
  ports := nofun
  undriven _ := rfl
  idle := nofun
  mirror := BitVec.zero_and
  position := .idle rfl rfl rfl
  held _ := rfl

/-- While ARST stays asserted the adapter's registers hold their reset values whatever lands (R300). -/
theorem landInput_heldInReset (r : State) {i : Input} (hi : i ≠ .arst true)
    (ha : (landInput i (heldInReset r)).arst = true) :
    landInput i (heldInReset r) = heldInReset (landInput i (heldInReset r)) := by
  cases i with
  | arst b => cases b <;> [exact absurd ha Bool.false_ne_true; exact absurd rfl hi]
  | _ => rfl

/-! ## The bus of a configured adapter, whatever the host writes -/

/-- Two states whose pins and ports the adapter's steps cannot tell apart, the control port only as far as `k` says that the
roles are fixed: before CFG_PINS has run the host may write every bit of it (R134). -/
structure Alike (k : Prop) (u v : State) : Prop where
  params : u.params = v.params
  csr : u.idxCsr = v.idxCsr
  csw : u.idxCsw = v.idxCsw
  mode : u.idxMode = v.idxMode
  reset : u.idxReset = v.idxReset
  int : u.idxInt = v.idxInt
  configured : u.configured = v.configured
  ports : u.portsInit = v.portsInit
  ddir : u.ddir = v.ddir
  saved : u.savedDdir = v.savedDdir
  intDir : u.intDir = v.intDir
  bus : k → SameBus u v

theorem Alike.refl (k : Prop) (s : State) : Alike k s s :=
  ⟨rfl, rfl, rfl, rfl, rfl, rfl, rfl, rfl, rfl, rfl, rfl, fun _ => .refl s⟩

theorem alike_withInputs (k : Prop) (s : State) (l : List Input) : Alike k { s with inputs := l } s :=
  { Alike.refl k s with bus := fun _ => { SameBus.refl s with } }

/-- What lands leaves the pins and ports alike (R134, R135). -/
theorem landInput_alike {k : Prop} {i : Input} {s : State} (hk : k → s.configured = true) (hi : i ≠ .arst true) :
    Alike k (landInput i s) s := by
  obtain ⟨params, -, -, -, -, -, configured, ports, csr, csw, mode, reset, int, ddir, saved, intDir, -⟩ :=
    landInput_keeps s hi
  exact ⟨params, csr, csw, mode, reset, int, configured, ports, ddir, saved, intDir,
    fun h => landInput_sameBus i s (hk h) hi⟩

/-- The invariant of pins and ports carries over between states that are alike. -/
theorem BusInv.of_alike {k : Prop} {u v : State} (h : BusInv v) (hk : v.portsInit = true → k) (a : Alike k u v) :
    BusInv u where
  pins hc := (h.pins (a.configured ▸ hc)).of_eq a.csr a.csw a.mode a.reset a.int
  ports hp := a.configured.trans (h.ports (a.ports ▸ hp))
  undriven hp := a.ddir.trans (h.undriven (a.ports ▸ hp))
  idle hp := by
    have hv : v.portsInit = true := a.ports ▸ hp
    exact (h.idle hv).of_sameBus (a.bus (hk hv)) (h.pins (h.ports hv))

/-- What lands keeps the invariant of pins and ports. -/
theorem BusInv.landInput {s : State} (h : BusInv s) {i : Input} (hi : i ≠ .arst true) : BusInv (landInput i s) :=
  h.of_alike h.ports (landInput_alike id hi)

/-- The steps that a command may contain behind its window wait, or that has none: they keep the mirror without mode bits,
and give no pin a role where `k` says that the roles are fixed. -/
def MicroOp.Plain (k : Prop) (c : Params) : MicroOp → Prop
  | .enterWait => False
  | .windowWait => False
  | .setPin _ _ => ¬k
  | .setR1 v => v &&& c.r1ModeMask = 0
  | _ => True

/-- ROLE_MASK depends on the roles alone (R47). -/
theorem SameBus.roleMask {u v : State} (h : SameBus u v) : u.roleMask = v.roleMask := by
  simp only [State.roleMask, h.configured, h.csr, h.csw, h.mode, h.reset]

/-- A plain step of a command keeps the same bus the same. -/
theorem SameBus.perform {u v : State} (h : SameBus u v) {c : Params} {op : MicroOp} (hop : op.Plain True c) :
    SameBus (perform op u) (perform op v) := by
  cases op with
  | setPin pin i => exact absurd trivial hop
  | assertLine role =>
    simp only [Machine.perform, assertOp, h.params]
    exact h.driveLine role _
  | deassertLine role =>
    simp only [Machine.perform, deassertOp, h.params]
    exact h.driveLine role _
  | rolesOutput =>
    refine { h with dir := fun j hj hr => ?_ }
    simp only [Machine.perform, writeCtrlDir_fields, BitVec.getLsbD_or, h.roleMask, h.dir j hj hr]
  | intInput => exact { h with intDir := by simp only [Machine.perform, writeIntDir_fields, h.intDir, h.int] }
  | saveDir => exact { h with saved := h.ddir }
  | setDir d => exact { h with ddir := rfl }
  | restoreDir => exact { h with ddir := h.saved }
  | setConfigured => exact { h with configured := rfl }
  | _ => exact { h with }

/-- A plain step of a command keeps what is alike alike. -/
theorem Alike.perform {k : Prop} {u v : State} (h : Alike k u v) {c : Params} {op : MicroOp} (hop : op.Plain k c) :
    Alike k (perform op u) (perform op v) := by
  have bus (hk : k) : SameBus (Machine.perform op u) (Machine.perform op v) :=
    (h.bus hk).perform (c := c) (by cases op <;> simp_all [MicroOp.Plain])
  cases op with
  | setPin pin i =>
    exact { h with
      csr := by simp only [Machine.perform, setPin, h.csr]
      csw := by simp only [Machine.perform, setPin, h.csw]
      mode := by simp only [Machine.perform, setPin, h.mode]
      reset := by simp only [Machine.perform, setPin, h.reset]
      int := by simp only [Machine.perform, setPin, h.int]
      bus }
  | intInput => exact { h with intDir := by simp only [Machine.perform, writeIntDir_fields, h.intDir, h.int], bus }
  | saveDir => exact { h with saved := h.ddir, bus }
  | setDir d => exact { h with ddir := rfl, bus }
  | restoreDir => exact { h with ddir := h.saved, bus }
  | setConfigured => exact { h with configured := rfl, bus }
  | portsReady => exact { h with ports := rfl, bus }
  | _ => exact { h with bus }

/-- What the steps still to be run will make of the pins and ports does not depend on what is not alike. -/
theorem Alike.performAll {k : Prop} {u v : State} (h : Alike k u v) {c : Params} {ops : List MicroOp}
    (hops : ∀ op ∈ ops, op.Plain k c) : Alike k (performAll ops u) (performAll ops v) := by
  induction ops generalizing u v with
  | nil => exact h
  | cons op ops ih => exact ih (h.perform (hops op (by simp))) fun o ho => hops o (by simp [ho])

/-! ## The steps of a command -/

/-- A plain step keeps the memories canonical and the mirror without mode bits (R52). -/
theorem Sound.perform {s : State} (h : Sound s) {k : Prop} {op : MicroOp} (hop : op.Plain k s.params) :
    Sound (perform op s) := by
  obtain ⟨params, mem, before, vram, mirror⟩ := h
  cases op with
  | assertLine role => exact ⟨params, mem, before, wf_vdpAfter _ _ vram, mirror⟩
  | deassertLine role => exact ⟨params, mem, before, wf_vdpAfter _ _ vram, mirror⟩
  | sampleData => exact ⟨params, mem, before, wf_vdpAfter _ _ vram, mirror⟩
  | hostWrite h m => exact ⟨params, Memory.wf_hostWrite _ _ mem, before, vram, mirror⟩
  | setR1 v => exact ⟨params, mem, before, vram, hop⟩
  | _ => exact ⟨params, mem, before, vram, mirror⟩

/-- The steps that end a command (R103, R104). -/
def MicroOp.Ends : MicroOp → Prop
  | .finish _ => True
  | .noop _ => True
  | _ => False

/-- No step but the last sets or clears BUSY. -/
theorem perform_busy {op : MicroOp} {s : State} (h : (perform op s).busy = true) : s.busy = true ∧ ¬op.Ends := by
  cases op with
  | finish r => exact absurd h Bool.false_ne_true
  | noop bulk => exact absurd h Bool.false_ne_true
  | _ => exact ⟨h, id⟩

/-- A plain step leaves WAIT_INT alone (R46). -/
theorem perform_waitInt {k : Prop} {c : Params} {op : MicroOp} (s : State) (hop : op.Plain k c) :
    (perform op s).waitInt = s.waitInt := by
  cases op with
  | enterWait => exact absurd hop id
  | windowWait => exact absurd hop id
  | _ => rfl

/-- No step takes a role away. -/
theorem perform_configured (op : MicroOp) {s : State} (h : s.configured = true) : (perform op s).configured = true := by
  cases op with
  | setConfigured => rfl
  | _ => exact h

/-! ## A running command -/

/-- A command under way whose remaining steps `ops` have no window wait: they end it, and lead to pins and ports with the
invariant again. -/
structure Underway (k : Prop) (ops : List MicroOp) (s : State) : Prop where
  sound : Sound s
  waitInt : s.waitInt = false
  fixed : k → s.configured = true
  plain : ∀ op ∈ ops, op.Plain k s.params
  ends : s.busy = true → ∃ op ∈ ops, op.Ends
  bus : BusInv (performAll ops s)
  tracked : (performAll ops s).portsInit = true → k

/-- A bulk transfer's steps for one byte, with legal lengths (R92, R194, R195). -/
inductive BulkByte (l : BitVec 16) : List MicroOp → Prop
  | write (h m : BitVec 16) (legal : lengthsValid l m = true) : BulkByte l (writeByte h m)
  | read (h m : BitVec 16) (legal : lengthsValid l m = true) : BulkByte l (readByte h m)

/-- A bulk command that has not yet moved anything: the bus is idle and its HOSTMEM is unwritten (R194, R195). -/
structure Poised (s : State) : Prop where
  sound : Sound s
  bus : BusInv s
  unwritten : s.hostmemBefore = s.hostmem
  busy : s.busy = true
  ports : s.portsInit = true

/-- A running command with the steps `ops` left: a bulk command at or before its window wait, or a command that goes on to
its end. -/
inductive Running (ops : List MicroOp) (s : State) : Prop
  | pacing {l byte} (poised : Poised s) (bulk : BulkByte l byte)
      (todo : ops = .setPace true :: .enterWait :: waitingOps s l byte)
  | entering {l byte} (poised : Poised s) (bulk : BulkByte l byte) (paced : s.p = true)
      (todo : ops = .enterWait :: waitingOps s l byte)
  | waiting {l byte} (poised : Poised s) (bulk : BulkByte l byte) (paced : s.p = true) (todo : ops = waitingOps s l byte)
  | moving {k : Prop} (underway : Underway k ops s)

theorem Running.sound {ops : List MicroOp} {s : State} (h : Running ops s) : Sound s := by
  cases h with
  | pacing poised => exact poised.sound
  | entering poised => exact poised.sound
  | waiting poised => exact poised.sound
  | moving underway => exact underway.sound

/-- The steps of a wait are those of the same burst in every state with the same parameters and variant. -/
theorem waitingOps_eq {u s : State} (params : u.params = s.params) (variant : u.seqVariant = s.seqVariant) (l : BitVec 16)
    (byte : List MicroOp) : waitingOps u l byte = waitingOps s l byte := by
  simp only [waitingOps, params, variant]

/-- A bulk command stays poised while neither the bus nor HOSTMEM changes. -/
theorem Poised.of_bus {s t : State} (h : Poised s) (sound : Sound t) (e : t.bus = s.bus)
    (unwritten : t.hostmemBefore = t.hostmem) (busy : t.busy = true) : Poised t :=
  ⟨sound, h.bus.of_bus e, unwritten, busy, (congrArg BusRegs.portsInit e).trans h.ports⟩

theorem Poised.landInput {s : State} (h : Poised s) {i : Input} (hi : i ≠ .arst true) : Poised (landInput i s) := by
  obtain ⟨-, busy, -, -, -, -, -, ports, -⟩ := landInput_keeps s hi
  exact ⟨h.sound.landInput hi, h.bus.landInput hi, landInput_unwritten h.unwritten, busy.trans h.busy,
    ports.trans h.ports⟩

/-- A command under way stays so in a state that is alike. -/
theorem Underway.of_alike {k : Prop} {ops : List MicroOp} {u s : State} (h : Underway k ops s) (a : Alike k u s)
    (sound : Sound u) (busy : u.busy = s.busy) (waitInt : u.waitInt = s.waitInt) : Underway k ops u where
  sound := sound
  waitInt := waitInt.trans h.waitInt
  fixed hk := a.configured.trans (h.fixed hk)
  plain op ho := a.params ▸ h.plain op ho
  ends hb := h.ends (busy ▸ hb)
  bus := h.bus.of_alike h.tracked (a.performAll h.plain)
  tracked hp := h.tracked ((a.performAll h.plain).ports ▸ hp)

/-- What lands leaves a running command where it is. -/
theorem Running.landInput {ops : List MicroOp} {s : State} (h : Running ops s) {i : Input} (hi : i ≠ .arst true) :
    Running ops (landInput i s) := by
  obtain ⟨params, busy, waitInt, p, -, variant, -⟩ := landInput_keeps s hi
  cases h with
  | pacing poised bulk todo => exact .pacing (poised.landInput hi) bulk (by rw [todo, waitingOps_eq params variant])
  | entering poised bulk paced todo =>
    exact .entering (poised.landInput hi) bulk (p.trans paced) (by rw [todo, waitingOps_eq params variant])
  | waiting poised bulk paced todo =>
    exact .waiting (poised.landInput hi) bulk (p.trans paced) (by rw [todo, waitingOps_eq params variant])
  | moving underway =>
    exact .moving (underway.of_alike (landInput_alike underway.fixed hi) (underway.sound.landInput hi) busy waitInt)

/-- What is still to land is nothing a running command depends on. -/
theorem Running.withInputs {ops : List MicroOp} {s : State} (h : Running ops s) (l : List Input) :
    Running ops { s with inputs := l } := by
  have poise (h : Poised s) : Poised { s with inputs := l } := h.of_bus { h.sound with } rfl h.unwritten h.busy
  cases h with
  | pacing poised bulk todo => exact .pacing (poise poised) bulk todo
  | entering poised bulk paced todo => exact .entering (poise poised) bulk paced todo
  | waiting poised bulk paced todo => exact .waiting (poise poised) bulk paced todo
  | moving underway =>
    exact .moving (underway.of_alike (alike_withInputs _ s l) { underway.sound with } rfl rfl)

/-- The next step of a command under way. -/
theorem Underway.perform {k : Prop} {op : MicroOp} {rest : List MicroOp} {s : State} (h : Underway k (op :: rest) s) :
    Underway k rest (perform op s) := by
  have hop : op.Plain k s.params := h.plain op (by simp)
  exact {
    sound := h.sound.perform hop
    waitInt := (perform_waitInt s hop).trans h.waitInt
    fixed := fun hk => perform_configured op (h.fixed hk)
    plain := fun o ho => (perform_params op s).symm ▸ h.plain o (by simp [ho])
    ends := fun hb => by
      obtain ⟨busy, go⟩ := perform_busy hb
      obtain ⟨o, ho, he⟩ := h.ends busy
      rcases List.mem_cons.mp ho with rfl | ho
      · exact absurd he go
      · exact ⟨o, ho, he⟩
    bus := h.bus
    tracked := h.tracked }

/-! ## Steps that put the bus back -/

/-- A configured adapter with the idle bus and the sequencing variant `variant` (R138, R139). -/
structure OnBus (variant : SeqVariant) (s : State) : Prop where
  variant : s.seqVariant = variant
  configured : s.configured = true
  pins : PinsWf s
  idle : BusIdle s

theorem OnBus.of_bus {variant : SeqVariant} {s t : State} (h : OnBus variant s) (e : t.bus = s.bus) : OnBus variant t :=
  ⟨(congrArg BusRegs.seqVariant e).trans h.variant, (congrArg BusRegs.configured e).trans h.configured,
    h.pins.of_bus e, h.idle.of_bus e⟩

/-- The steps leave the pins and ports of an idle bus as they were. -/
def Settles (variant : SeqVariant) (ops : List MicroOp) : Prop :=
  ∀ s, OnBus variant s → (performAll ops s).bus = s.bus

section

variable {variant : SeqVariant}

theorem Settles.nil : Settles variant [] := fun _ _ => rfl

theorem Settles.append {a b : List MicroOp} (ha : Settles variant a) (hb : Settles variant b) :
    Settles variant (a ++ b) := by
  intro s h
  rw [performAll_append, hb _ (h.of_bus (ha s h)), ha s h]

/-- A step that touches no port settles. -/
theorem Settles.single {op : MicroOp} (h : ∀ s, (perform op s).bus = s.bus) : Settles variant [op] := fun s _ => h s

theorem Settles.flatMap {α : Type} {f : α → List MicroOp} (h : ∀ x, Settles variant (f x)) (l : List α) :
    Settles variant (l.flatMap f) := by
  induction l with
  | nil => exact .nil
  | cons x l ih => exact (h x).append ih

/-- A framing pair ends on the idle bus (R138, R139). -/
theorem settles_frame2 (b1 b2 : Byte) : Settles variant (frame2 variant b1 b2) := by
  rintro s ⟨rfl, configured, pins, idle⟩
  rw [performAll_frame2 configured pins idle]
  rfl

/-- A status read restores DDIR and ends on the idle bus (R139, R230). -/
theorem settles_statusRead : Settles variant (statusRead variant ++ [.latchStatus]) := by
  rintro s ⟨rfl, -, pins, idle⟩
  rw [performAll_statusRead pins idle]
  rfl

/-- The byte loop of a burst ends on the idle bus (R139, R194, R195). -/
theorem settles_byteLoop (paced : Bool) {l : BitVec 16} {byte : List MicroOp} (hb : BulkByte l byte) (n : BitVec 16) :
    Settles variant (byteLoop paced byte n.toNat) := by
  rintro s ⟨-, configured, pins, idle⟩
  have hn : n.toNat ≤ 65536 := by omega
  cases hb with
  | write h m =>
    rw [performAll_writeLoop configured pins idle paced h m _ hn]
    exact afterWriteBytes_keeps State.bus paced h m (fun _ _ => rfl) _ s
  | read h m =>
    rw [performAll_readLoop configured pins idle paced h m _ hn]
    exact afterReadBytes_keeps State.bus paced h m (fun _ _ => rfl) _ s

/-- All that a bulk command does after its window wait ends on the idle bus. -/
theorem settles_burstOps (paced : Bool) (count : BitVec 16) {l : BitVec 16} {byte : List MicroOp} (hb : BulkByte l byte) :
    Settles variant (burstOps variant paced count l byte) := by
  have setCount : Settles variant [.setCount count] := .single fun _ => rfl
  have flags : Settles variant [.setPartial l, .setPaced] :=
    Settles.append (a := [.setPartial l]) (.single fun _ => rfl) (.single fun _ => rfl)
  have h := ((setCount.append (settles_byteLoop paced hb count)).append settles_statusRead).append flags
  simpa [burstOps] using h

/-- ApplyMode ends on the idle bus (R167). -/
theorem settles_applyMode (c : Params) (m : Mode) (r1 colour : Byte) (b : TableBases) :
    Settles variant (applyMode c variant m r1 colour b) :=
  (Settles.flatMap (fun _ => settles_frame2 _ _) _).append (.single fun _ => rfl)

/-! ## Plain steps -/

variable {k : Prop} {c : Params}

theorem plain_frame2 (b1 b2 : Byte) : ∀ op ∈ frame2 variant b1 b2, op.Plain k c := by
  cases variant <;> simp [frame2, writePulse, MicroOp.Plain]

theorem plain_statusRead : ∀ op ∈ statusRead variant, op.Plain k c := by
  cases variant <;> simp [statusRead, readPulse, MicroOp.Plain]

theorem plain_bulkByte {l : BitVec 16} {byte : List MicroOp} (h : BulkByte l byte) : ∀ op ∈ byte, op.Plain k c := by
  cases h <;> simp [writeByte, readByte, readPulse, MicroOp.Plain]

theorem plain_byteLoop (paced : Bool) {byte : List MicroOp} (h : ∀ op ∈ byte, op.Plain k c) (n : Nat) :
    ∀ op ∈ byteLoop paced byte n, op.Plain k c := by
  intro op ho
  simp only [byteLoop, List.mem_flatMap, List.mem_cons, List.mem_append] at ho
  obtain ⟨j, -, rfl | ho | ho⟩ := ho
  · trivial
  · split at ho
    · obtain rfl := List.mem_singleton.mp ho
      trivial
    · nomatch ho
  · exact h op ho

theorem plain_burstOps (paced : Bool) (count : BitVec 16) {l : BitVec 16} {byte : List MicroOp} (h : BulkByte l byte) :
    ∀ op ∈ burstOps variant paced count l byte, op.Plain k c := by
  simp only [burstOps, List.forall_mem_append]
  have loop := plain_byteLoop (k := k) (c := c) paced (plain_bulkByte h) count.toNat
  exact ⟨⟨⟨by simp [MicroOp.Plain], loop⟩, plain_statusRead⟩, by simp [MicroOp.Plain]⟩

theorem plain_applyMode (m : Mode) (r1 colour : Byte) (b : TableBases) (c' : Params) :
    ∀ op ∈ applyMode c' variant m r1 colour b, op.Plain k c := by
  simp only [applyMode, List.forall_mem_append, List.mem_flatMap]
  refine ⟨?_, by simp [MicroOp.Plain]⟩
  rintro op ⟨rv, -, ho⟩
  exact plain_frame2 _ _ op ho

end

/-! ## Running to the end or to the window wait -/

/-- The last step of a command touches no port (R103, R104). -/
theorem perform_bus_of_ends {op : MicroOp} (h : op.Ends) (s : State) : (perform op s).bus = s.bus := by
  cases op with
  | finish r => rfl
  | noop bulk => rfl
  | _ => exact absurd h id

/-- Steps that may be run from `s` up to a command's last step: plain ones that lead to pins and ports with the
invariant. -/
structure Leads (ops : List MicroOp) (s : State) : Prop where
  plain : ∀ op ∈ ops, op.Plain (s.configured = true) s.params
  bus : BusInv (performAll ops s)
  tracked : (performAll ops s).portsInit = true → s.configured = true

theorem Leads.of_bus {ops : List MicroOp} {s : State} (h : BusInv s)
    (plain : ∀ op ∈ ops, op.Plain (s.configured = true) s.params) (e : (performAll ops s).bus = s.bus) :
    Leads ops s where
  plain := plain
  bus := h.of_bus e
  tracked hp := h.ports ((congrArg BusRegs.portsInit e).symm.trans hp)

/-- With the ports initialised, steps that settle may be run. -/
theorem Leads.of_settles {ops : List MicroOp} {s : State} (h : BusInv s) (ports : s.portsInit = true)
    (plain : ∀ op ∈ ops, op.Plain (s.configured = true) s.params) (settles : Settles s.seqVariant ops) : Leads ops s :=
  have configured := h.ports ports
  .of_bus h plain (settles s ⟨rfl, configured, h.pins configured, h.idle ports⟩)

/-- Such steps, and a last one, are a command under way. -/
theorem Leads.underway {ops : List MicroOp} {s : State} (h : Leads ops s) (sound : Sound s) (waitInt : s.waitInt = false)
    {last : MicroOp} (ends : last.Ends) : Underway (s.configured = true) (ops ++ [last]) s := by
  have bus : (performAll (ops ++ [last]) s).bus = (performAll ops s).bus := by
    rw [performAll_append]
    exact perform_bus_of_ends ends _
  have plain : last.Plain (s.configured = true) s.params := by
    cases last with
    | finish r => trivial
    | noop bulk => trivial
    | _ => exact absurd ends id
  exact {
    sound, waitInt
    fixed := id
    plain := List.forall_mem_append.mpr ⟨h.plain, List.forall_mem_singleton.mpr plain⟩
    ends := fun _ => ⟨last, by simp, ends⟩
    bus := h.bus.of_bus bus
    tracked := fun hp => h.tracked ((congrArg BusRegs.portsInit bus).symm.trans hp) }

/-- A step of a running command leads to a running command, unless it is a window wait that goes on (R7, R193). -/
theorem Running.perform {op : MicroOp} {rest : List MicroOp} {s : State} (h : Running (op :: rest) s)
    (go : ¬(op = .windowWait ∧ (perform op s).waitInt = true)) : Running rest (perform op s) := by
  cases h with
  | pacing poised bulk todo =>
    obtain ⟨rfl, rfl⟩ := List.cons.inj todo
    exact .entering (poised.of_bus { poised.sound with } rfl poised.unwritten poised.busy) bulk rfl rfl
  | entering poised bulk paced todo =>
    obtain ⟨rfl, rfl⟩ := List.cons.inj todo
    exact .waiting (poised.of_bus { poised.sound with } rfl poised.unwritten poised.busy) bulk paced rfl
  | @waiting l byte poised bulk paced todo =>
    obtain ⟨rfl, rfl⟩ := List.cons.inj todo
    have waitInt : (pollInt s).waitInt = false := Bool.eq_false_iff.mpr fun hw => go ⟨rfl, hw⟩
    have leads : Leads (burstOps s.seqVariant true (effectiveCount s.params true l) l byte) (pollInt s) :=
      .of_settles (poised.bus.of_bus rfl) poised.ports (plain_burstOps true _ bulk) (settles_burstOps true _ bulk)
    exact .moving (leads.underway { poised.sound with } waitInt trivial)
  | moving underway => exact .moving underway.perform

/-- A running command comes to a state with the invariant, whatever lands: its end, its window wait, or adapter reset. -/
theorem machineInv_runOps {ops : List MicroOp} {s : State} (h : Running ops s) (ha : s.arst = false) :
    MachineInv (runOps ops s) := by
  refine runOps_induct (P := Running) (Q := MachineInv) ?land ?inputs ?reset ?step ?done ?wait ops s h ha
  case land => exact fun _ _ _ h _ hi => h.landInput hi
  case inputs => exact fun _ _ l h => h.withInputs l
  case reset => exact fun _ _ h _ => machineInv_assertReset h.sound
  case step => exact fun _ _ _ h _ go => h.perform go
  case done =>
    intro s h ha
    cases h with
    | pacing _ _ todo => nomatch todo
    | entering _ _ _ todo => nomatch todo
    | waiting _ _ _ todo => nomatch todo
    | moving underway =>
      have busy : s.busy = false := Bool.eq_false_iff.mpr fun hb => by
        obtain ⟨op, ho, -⟩ := underway.ends hb
        nomatch ho
      have unwritten (hb : s.busy = true) : s.hostmemBefore = s.hostmem :=
        absurd (busy.symm.trans hb) Bool.false_ne_true
      exact .of_parts { underway.sound with } (underway.bus.of_bus rfl) unwritten (.idle busy underway.waitInt rfl) ha
  case wait =>
    intro rest s h ha hw
    cases h with
    | pacing _ _ todo => nomatch todo
    | entering _ _ _ todo => nomatch todo
    | waiting poised bulk paced todo =>
      refine .of_parts { poised.sound with } (poised.bus.of_bus rfl) (fun _ => poised.unwritten) ?_ ha
      cases bulk with
      | write h m legal => exact .waitingWrite h _ m poised.busy hw paced poised.ports legal todo
      | read h m legal => exact .waitingRead h _ m poised.busy hw paced poised.ports legal todo
    | moving underway => exact absurd (underway.plain .windowWait (by simp)) id

/-! ## A command from its start -/

/-- A state in which a command word has just been accepted (R101). -/
structure Accepted (s : State) : Prop where
  sound : Sound s
  bus : BusInv s
  unwritten : s.hostmemBefore = s.hostmem
  waitInt : s.waitInt = false
  arst : s.arst = false
  busy : s.busy = true

/-- BUSY is already 1 when a command's first step is run (R101). -/
theorem Accepted.withBusy {s : State} (h : Accepted s) : { s with busy := true } = s := by
  rw [← h.busy]

/-- Running a command's steps from the state that accepted it keeps the invariant. -/
theorem machineInv_execute {ops : List MicroOp} {s t : State} (h : Accepted s) (run : Running ops s)
    (e : execute ops s = .next t) : MachineInv t := by
  rw [execute, h.withBusy] at e
  cases e
  exact machineInv_runOps run h.arst

/-- Steps that may be run, and a last one. -/
theorem machineInv_leads {ops : List MicroOp} {last : MicroOp} {s t : State} (h : Accepted s) (leads : Leads ops s)
    (ends : last.Ends) (e : execute (ops ++ [last]) s = .next t) : MachineInv t :=
  machineInv_execute h (.moving (leads.underway h.sound h.waitInt ends)) e

/-- A no-op (R104). -/
theorem machineInv_noop {bulk : Bool} {s t : State} (h : Accepted s) (e : execute [.noop bulk] s = .next t) :
    MachineInv t :=
  machineInv_leads (ops := []) (last := .noop bulk) h (.of_bus h.bus nofun rfl) trivial e

/-- A command that is no bulk command keeps the invariant if its steps may be run where its guard holds. -/
theorem machineInv_command {g : Bool} {ops : List MicroOp} {r : ResultSource} {s t : State} (h : Accepted s)
    (leads : g = true → Leads ops s) (e : command g ops r s = .next t) : MachineInv t := by
  cases g with
  | false => exact machineInv_noop h e
  | true => exact machineInv_leads (last := .finish r) h (leads rfl) trivial e

/-- A command with the guard G_ready keeps the invariant if its steps settle (R105, R139). -/
theorem machineInv_command_ready {ops : List MicroOp} {r : ResultSource} {s t : State} (h : Accepted s)
    (plain : ∀ op ∈ ops, op.Plain (s.configured = true) s.params) (settles : Settles s.seqVariant ops)
    (e : command (gReady s) ops r s = .next t) : MachineInv t := by
  refine machineInv_command h (fun g => ?_) e
  have ports : s.portsInit = true := (Bool.and_eq_true_iff.mp g).2
  exact .of_settles h.bus ports plain settles

/-- BULK_WRITE and BULK_READ keep the invariant (R194, R195). -/
theorem machineInv_bulkCommand {l : BitVec 16} {byte : List MicroOp} {legal : Bool} {s t : State} (h : Accepted s)
    (bulk : legal = true → BulkByte l byte) (e : bulkCommand (gReady s && legal) (bulkOps s l byte) s = .next t) :
    MachineInv t := by
  cases g : gReady s && legal with
  | false => rw [g] at e; exact machineInv_noop h e
  | true =>
    rw [g] at e
    obtain ⟨ready, isLegal⟩ := Bool.and_eq_true_iff.mp g
    have ports : s.portsInit = true := (Bool.and_eq_true_iff.mp ready).2
    have bulk := bulk isLegal
    cases paced : gate s with
    | false =>
      have steps : bulkOps s l byte =
          [.setPace false] ++ burstOps s.seqVariant false (effectiveCount s.params false l) l byte := by
        simp [bulkOps, paced, windowWait]
      rw [steps] at e
      have plain : MicroOp.Plain (s.configured = true) s.params (.setPace false) := trivial
      refine machineInv_leads (last := .finish .count) h (.of_settles h.bus ports ?_ ?_) trivial e
      · exact List.forall_mem_cons.mpr ⟨plain, plain_burstOps false _ bulk⟩
      · exact Settles.append (.single fun _ => rfl) (settles_burstOps false _ bulk)
    | true =>
      have poised : Poised s := ⟨h.sound, h.bus, h.unwritten, h.busy, ports⟩
      refine machineInv_execute h (.pacing poised bulk ?_) e
      simp [bulkOps, paced, windowWait, waitingOps]

/-! ## The commands -/

/-- The pins CFG_PINS takes for valid are legal (R136). -/
theorem pinsWf_of_pinsValid {s : State} {pres : BitVec 8}
    (h : pinsValid s.idxCsr s.idxCsw s.idxMode s.idxReset s.idxInt pres = true) : PinsWf s := by
  simp only [pinsValid, Bool.and_eq_true, bne_iff_ne, decide_eq_true_eq] at h
  obtain ⟨⟨⟨⟨⟨⟨inRange, csrCsw⟩, csrMode⟩, csrReset⟩, cswMode⟩, cswReset⟩, modeReset⟩ := h
  obtain ⟨⟨⟨⟨⟨-, csr⟩, csw⟩, mode⟩, reset⟩, int⟩ := inRange
  exact { csr, csw, mode, reset, int, csrCsw, csrMode, csrReset, cswMode, cswReset, modeReset }

/-- The assignments of CFG_PINS all at once (R136). -/
theorem performAll_configureOps (csr csw mode rst int : BitVec 4) (var : SeqVariant) (bpol : BlankPolarity) (dsh : Bool)
    (s : State) : performAll (configureOps csr csw mode rst int var bpol dsh) s =
      { s with
        idxCsr := csr, idxCsw := csw, idxMode := mode, idxReset := rst, idxInt := int, seqVariant := var
        blankPol := bpol, dshared := dsh, configured := true } := by
  simp only [configureOps, performAll_cons, performAll_nil, perform, setPin, reduceCtorEq, ↓reduceIte]

/-- CFG_PINS gives an adapter without roles legal ones, and touches no port (R136). -/
theorem leads_configureOps {s : State} (h : BusInv s) {csr csw mode rst int : BitVec 4} {pres : BitVec 8}
    (var : SeqVariant) (bpol : BlankPolarity) (dsh : Bool) (configured : s.configured = false)
    (valid : pinsValid csr csw mode rst int pres = true) : Leads (configureOps csr csw mode rst int var bpol dsh) s where
  plain := by simp [configureOps, MicroOp.Plain, configured]
  bus := by
    rw [performAll_configureOps]
    exact {
      pins := fun _ => pinsWf_of_pinsValid valid
      ports := fun _ => rfl
      undriven := h.undriven
      idle := fun hp => absurd (configured.symm.trans (h.ports hp)) Bool.false_ne_true }
  tracked := by
    rw [performAll_configureOps]
    exact h.ports

/-- INIT_PORTS's steps up to `finish(0)`, as far as pins and ports go (R137). -/
theorem performAll_initPortsOps_bus (s : State) : (performAll initPortsOps s).bus = (afterInitPorts s).bus := by
  simp only [initPortsOps, performAll_cons, performAll_nil, perform, deassertOp, driveLine, writeCtrl, writeCtrlDir,
    writeIntDir, setDataDir, State.roleIndex, assertLevel, Bool.not_false, Bool.not_not]
  rfl

/-- The four lines at their idle levels, the roles outputs and the interrupt pin an input: the idle bus (R137, R139). -/
theorem busIdle_afterInitPorts {s : State} (hp : PinsWf s) (hc : s.configured = true) : BusIdle (afterInitPorts s) := by
  have role (j : Nat) (hj : j < 8) (hr : IsRole s j) : (s.ctrlDir ||| s.roleMask).getLsbD j = true := by
    rw [BitVec.getLsbD_or, roleMask_role s hc j hj hr, Bool.or_true]
  constructor
  case csr =>
    change (idleCtrl s).getLsbD s.idxCsr.toNat = true
    rw [idleCtrl, getLsbD_withBit_other _ _ hp.csr (toNat_ne hp.csrReset),
      getLsbD_withBit_other _ _ hp.csr (toNat_ne hp.csrMode), getLsbD_withBit_same _ _ hp.csr]
  case csw =>
    change (idleCtrl s).getLsbD s.idxCsw.toNat = true
    rw [idleCtrl, getLsbD_withBit_other _ _ hp.csw (toNat_ne hp.cswReset),
      getLsbD_withBit_other _ _ hp.csw (toNat_ne hp.cswMode),
      getLsbD_withBit_other _ _ hp.csw (toNat_ne hp.csrCsw).symm, getLsbD_withBit_same _ _ hp.csw]
  case mode =>
    change (idleCtrl s).getLsbD s.idxMode.toNat = !s.params.modeAssertLevel
    rw [idleCtrl, getLsbD_withBit_other _ _ hp.mode (toNat_ne hp.modeReset), getLsbD_withBit_same _ _ hp.mode]
  case reset => exact getLsbD_withBit_same _ _ hp.reset
  case csrOut => exact role _ hp.csr (.inl rfl)
  case cswOut => exact role _ hp.csw (.inr (.inl rfl))
  case modeOut => exact role _ hp.mode (.inr (.inr (.inl rfl)))
  case resetOut => exact role _ hp.reset (.inr (.inr (.inr rfl)))
  case intIn => exact getLsbD_withBit_same _ _ hp.int
  case ddir => rfl

/-- INIT_PORTS leads a configured adapter to the idle bus (R137). -/
theorem leads_initPortsOps {s : State} (h : BusInv s) (configured : s.configured = true) : Leads initPortsOps s where
  plain := by simp [initPortsOps, MicroOp.Plain]
  bus := by
    have pins := h.pins configured
    have after : BusInv (afterInitPorts s) :=
      ⟨fun _ => pins.of_eq rfl rfl rfl rfl rfl, fun _ => configured, nofun,
        fun _ => busIdle_afterInitPorts pins configured⟩
    exact after.of_bus (performAll_initPortsOps_bus s)
  tracked _ := configured

/-- Writing a bit outside the mode bits keeps a mirror without them (R52). -/
theorem withBit_masked {b mask : Byte} {k : Nat} (level : Bool) (hb : b &&& mask = 0) (hk : mask.getLsbD k = false) :
    withBit b k level &&& mask = 0 := by
  apply byte_ext
  intro j hj
  rw [BitVec.getLsbD_and, getLsbD_withBit _ _ _ _ hj]
  split
  · subst_vars
    simp [hk]
  · rw [← BitVec.getLsbD_and, hb]

/-- The flags of INIT_DEVICE without the mode bits have none (R52, R171). -/
theorem masked_off (b mask : Byte) : (b &&& ~~~mask) &&& mask = 0 := by
  simp [BitVec.and_assoc, BitVec.and_comm (~~~mask)]

/-- SET_BLANK, SET_IRQ_ENABLE, SET_SPRITE_SIZE, SET_SPRITE_MAG: a mirror bit of one of the fields R3 keeps outside the mode
bits, and register 1 sent (R240). -/
theorem machineInv_r1Setter {s t : State} (h : Accepted s) {k : Fin 8} (level : Bool)
    (hk : k ∈ [s.params.r1MemsizeBit, s.params.r1BlankBit, s.params.r1IeBit, s.params.r1SizeBit, s.params.r1MagBit])
    (e : command (gReady s) (r1SetterOps s (withBit s.r1mir k.val level)) .zero s = .next t) : MachineInv t := by
  have masked := withBit_masked level h.sound.mirror (h.sound.params.fieldsOutsideMode k hk)
  refine machineInv_command_ready h ?_ ?_ e
  · exact List.forall_mem_cons.mpr ⟨masked, plain_frame2 _ _⟩
  · exact Settles.append (.single fun _ => rfl) (settles_frame2 _ _)

/-- SET_TEXT_COLOR and SET_BG_COLOR: the colour mirror, and register 7 sent (R245, R246). -/
theorem machineInv_colourSetter {s t : State} (h : Accepted s) {v : Byte}
    (e : command (gReady s) (colourSetterOps s v) .zero s = .next t) : MachineInv t := by
  refine machineInv_command_ready h ?_ ?_ e
  · exact List.forall_mem_cons.mpr ⟨trivial, plain_frame2 _ _⟩
  · exact Settles.append (.single fun _ => rfl) (settles_frame2 _ _)

/-- One framing pair and nothing else: SET_REG_RAW, SET_ADDR (R151, R169). -/
theorem machineInv_pair {s t : State} (h : Accepted s) {b1 b2 : Byte}
    (e : command (gReady s) (frame2 s.seqVariant b1 b2) .zero s = .next t) : MachineInv t :=
  machineInv_command_ready h (plain_frame2 _ _) (settles_frame2 _ _) e

/-- Every command keeps the invariant, from the state that has accepted it (R101). -/
theorem machineInv_exec {i : Instr} {s t : State} (h : Accepted s) (e : exec i s = .next t) : MachineInv t := by
  cases i with
  | nop => exact machineInv_command (g := true) (ops := []) h (fun _ => .of_bus h.bus nofun rfl) e
  | cfgPins csr csw mode rst int pres var bpol dsh =>
    refine machineInv_command h (fun g => ?_) e
    obtain ⟨configured, valid⟩ := Bool.and_eq_true_iff.mp g
    exact leads_configureOps h.bus var bpol dsh ((Bool.not_eq_true' _).mp configured) valid
  | initPorts => exact machineInv_command h (fun g => leads_initPortsOps h.bus g) e
  | initDevice md flags txt bg =>
    simp only [exec, execInitDevice] at e
    split at e
    · refine machineInv_command_ready h ?_ ?_ e
      · refine List.forall_mem_cons.mpr ⟨masked_off _ _, List.forall_mem_cons.mpr ⟨trivial, ?_⟩⟩
        exact plain_applyMode _ _ _ _ _
      · exact Settles.append (a := [.setR1 _, .setColour _]) (fun _ _ => rfl) (settles_applyMode _ _ _ _ _)
    · exact machineInv_noop h e
  | setMode md =>
    simp only [exec, execSetMode] at e
    split at e
    · exact machineInv_command_ready h (plain_applyMode _ _ _ _ _) (settles_applyMode _ _ _ _ _) e
    · exact machineInv_noop h e
  | setBlank b => exact machineInv_r1Setter h _ (by simp) e
  | setIrqEnable b => exact machineInv_r1Setter h _ (by simp) e
  | setSpriteSize b => exact machineInv_r1Setter h _ (by simp) e
  | setSpriteMag b => exact machineInv_r1Setter h _ (by simp) e
  | setTextColor c => exact machineInv_colourSetter h e
  | setBgColor c => exact machineInv_colourSetter h e
  | setRegRaw idx val =>
    simp only [exec, execSetRegRaw] at e
    split at e
    · exact machineInv_pair h e
    · exact machineInv_noop h e
  | setAddr a rd => exact machineInv_pair h e
  | bulkWrite base l m => exact machineInv_bulkCommand h (.write base m) e
  | bulkRead base l m => exact machineInv_bulkCommand h (.read base m) e
  | readStatus =>
    refine machineInv_command_ready h ?_ settles_statusRead e
    exact List.forall_mem_append.mpr ⟨plain_statusRead, List.forall_mem_singleton.mpr trivial⟩
  | setTableBase a tid =>
    simp only [exec, execSetTableBase] at e
    split at e
    · refine machineInv_command h (fun _ => .of_bus h.bus ?_ ?_) e
      · exact List.forall_mem_singleton.mpr trivial
      · rfl
    · exact machineInv_noop h e
  | clearFlags =>
    exact machineInv_command (g := true) (ops := [.clearOvr, .clearIll]) h
      (fun _ => .of_bus h.bus (by simp [MicroOp.Plain]) rfl) e

/-- An unassigned opcode keeps the invariant (R95). -/
theorem machineInv_illegalCommand {s t : State} (h : Accepted s) (e : illegalCommand s = .next t) : MachineInv t :=
  machineInv_leads (ops := [.setIll]) (last := .noop false) h
    (.of_bus h.bus (List.forall_mem_singleton.mpr trivial) rfl) trivial e

/-! ## The step -/

/-- An idle adapter has none of a command's marks (R46). -/
theorem Position.waitInt_of_idle {s : State} (h : Position s) (busy : s.busy = false) : s.waitInt = false := by
  cases h with
  | idle _ waitInt _ => exact waitInt
  | waitingWrite h l m hb => exact absurd (busy.symm.trans hb) Bool.false_ne_true
  | waitingRead h l m hb => exact absurd (busy.symm.trans hb) Bool.false_ne_true

/-- The sequencer's position is a matter of a few registers. -/
theorem Position.of_eq {s t : State} (h : Position s) (busy : t.busy = s.busy) (waitInt : t.waitInt = s.waitInt)
    (p : t.p = s.p) (todo : t.todo = s.todo) (ports : t.portsInit = s.portsInit) (params : t.params = s.params)
    (variant : t.seqVariant = s.seqVariant) : Position t := by
  cases h with
  | idle b w d => exact .idle (busy.trans b) (waitInt.trans w) (todo.trans d)
  | waitingWrite h l m b w paced r legal d =>
    exact .waitingWrite h l m (busy.trans b) (waitInt.trans w) (p.trans paced) (ports.trans r) legal
      (by rw [todo, d, waitingOps_eq params variant])
  | waitingRead h l m b w paced r legal d =>
    exact .waitingRead h l m (busy.trans b) (waitInt.trans w) (p.trans paced) (ports.trans r) legal
      (by rw [todo, d, waitingOps_eq params variant])

theorem MachineInv.withInputs {s : State} (h : MachineInv s) (l : List Input) : MachineInv { s with inputs := l } := by
  have bus : BusInv { s with inputs := l } := h.busInv.of_bus rfl
  exact { h with
    pins := bus.pins
    idle := bus.idle
    position := h.position.of_eq rfl rfl rfl rfl rfl rfl rfl
    held := fun ha => congrArg (fun u : State => { u with inputs := l }) (h.held ha) }

/-- Whatever lands keeps the invariant, with ARST asserted or released. -/
theorem MachineInv.landInput {s : State} (h : MachineInv s) (i : Input) : MachineInv (landInput i s) := by
  by_cases hi : i = .arst true
  · subst hi
    exact machineInv_assertReset h.sound
  · obtain ⟨params, busy, waitInt, p, todo, variant, -, ports, -⟩ := landInput_keeps s hi
    have sound := h.sound.landInput hi
    have bus := h.busInv.landInput hi
    exact {
      params := sound.params, hostmem := sound.hostmem, hostmemBefore := sound.hostmemBefore
      unwritten := fun hb => landInput_unwritten (h.unwritten (busy ▸ hb))
      vram := sound.vram, pins := bus.pins, ports := bus.ports, undriven := bus.undriven, idle := bus.idle
      mirror := sound.mirror
      position := h.position.of_eq busy waitInt p todo ports params variant
      held := fun ha => by
        cases hs : s.arst with
        | false => exact absurd ((landInput_arst_false hs hi).symm.trans ha) Bool.false_ne_true
        | true =>
          rw [h.held hs] at ha ⊢
          exact landInput_heldInReset s hi ha }

/-- A command in its window wait is a running command (R7, R193). -/
theorem MachineInv.running {s : State} (h : MachineInv s) (busy : s.busy = true) : Running s.todo s := by
  have poised (ports : s.portsInit = true) : Poised s := ⟨h.sound, h.busInv, h.unwritten busy, busy, ports⟩
  cases h.position with
  | idle hb => exact absurd (hb.symm.trans busy) Bool.false_ne_true
  | waitingWrite base l m _ _ paced ports legal todo => exact .waiting (poised ports) (.write base m legal) paced todo
  | waitingRead base l m _ _ paced ports legal todo => exact .waiting (poised ports) (.read base m legal) paced todo

/-- The state that accepts a command word (R101). -/
theorem MachineInv.accepted {s : State} (h : MachineInv s) (busy : s.busy = false) (arst : s.arst = false)
    (w : CommandWord) : Accepted (acceptCommand w s) where
  sound := ⟨h.params, h.hostmem, h.hostmem, h.vram, h.mirror⟩
  bus := h.busInv.of_bus rfl
  unwritten := rfl
  waitInt := h.position.waitInt_of_idle busy
  arst := arst
  busy := rfl

/-- Settles O54: whichever of its four things a step does, the running command going on, nothing, a landing, or a new
command, the invariant is kept. -/
theorem stepKeepsTheMachineInvariant : Obligations.StepKeepsTheMachineInvariant := by
  intro s t h e
  obtain ⟨busy, arst, rfl⟩ | ⟨-, -, rfl⟩ | ⟨i, rest, -, -, -, rfl⟩ | ⟨w, rest, -, busy, arst, e⟩ :=
    step_cases e
  · exact machineInv_runOps (h.running busy) arst
  · exact h
  · exact (h.withInputs rest).landInput i
  · have accepted := (h.withInputs rest).accepted busy arst w
    unfold startCommand at e
    split at e
    · exact machineInv_exec accepted e
    · exact machineInv_illegalCommand accepted e

end Sys2Proof.Machine

/-! The steps of a command as one list, its guard decided, and which part of the state each step, each command and each
landing can write. -/

namespace Sys2Proof.Machine

open Sys2Proof.Expected

/-! ## The steps of a command -/

/-- The steps a command performs between its guard and its last step (R102). -/
def bodyOf (s : State) : Instr → List MicroOp
  | .nop => []
  | .cfgPins csr csw mode rst int _ var bpol dsh => configureOps csr csw mode rst int var bpol dsh
  | .initPorts => initPortsOps
  | .initDevice md flags txt bg => (modeOfCode md).elim [] fun m => initDeviceOps s m flags txt bg
  | .setMode md => (modeOfCode md).elim [] fun m => applyMode s.params s.seqVariant m s.r1mir s.colmir s.tbase
  | .setBlank b => r1SetterOps s (withBit s.r1mir s.params.r1BlankBit.val (blankBitFor s.blankPol b))
  | .setIrqEnable b => r1SetterOps s (withBit s.r1mir s.params.r1IeBit.val b)
  | .setSpriteSize b => r1SetterOps s (withBit s.r1mir s.params.r1SizeBit.val b)
  | .setSpriteMag b => r1SetterOps s (withBit s.r1mir s.params.r1MagBit.val b)
  | .setTextColor c => colourSetterOps s (withNibble s.colmir s.params.colorTextShift.val c)
  | .setBgColor c => colourSetterOps s (withNibble s.colmir s.params.colorBgShift.val c)
  | .setRegRaw idx val => (registerOfIndex idx).elim [] fun i => programRegister s.seqVariant i val
  | .setAddr a rd => addressLatch s.seqVariant a rd
  | .bulkWrite h l m => bulkOps s l (writeByte h m)
  | .bulkRead h l m => bulkOps s l (readByte h m)
  | .readStatus => statusRead s.seqVariant ++ [.latchStatus]
  | .setTableBase a t => (tableOfId t).elim [] fun tbl => [.setTable tbl a]
  | .clearFlags => [.clearOvr, .clearIll]

/-- What RESULT takes when a command's guard holds (R38, R103). -/
def resultOf (i : Instr) : ResultSource :=
  match i with
  | .bulkWrite .. => .count
  | .bulkRead .. => .count
  | .readStatus => .status
  | _ => .zero

/-- All the steps of a command: those of its body and `finish(r)` where the guard of R106 holds, `noop()` where it does
not (R102-R104). -/
def stepsOf (s : State) (i : Instr) : List MicroOp :=
  if guardHolds s i then bodyOf s i ++ [.finish (resultOf i)] else [.noop (isBulk i)]

/-- A command whose operand names one of `α`, where the guard of R106 asks for a legal one (R92). -/
theorem command_operand {α : Type} {o : Option α} {legal : Bool} (h : o.isSome = legal) (g : Bool)
    (ops : α → List MicroOp) (s : State) :
    o.elim (command false [] .zero s) (fun x => command g (ops x) .zero s) =
      execute (if g && legal then o.elim [] ops ++ [.finish .zero] else [.noop false]) s := by
  subst h
  cases o with
  | none => rw [Option.isSome_none, Bool.and_false]; rfl
  | some x => rw [Option.isSome_some, Bool.and_true]; exact command_eq g (ops x) .zero s

theorem isSome_modeOfCode (md : BitVec 3) : (modeOfCode md).isSome = Instr.modeLegal md := by
  revert md; decide

theorem isSome_tableOfId (t : BitVec 3) : (tableOfId t).isSome = Instr.tableLegal t := by
  revert t; decide

theorem isSome_registerOfIndex (idx : BitVec 8) : (registerOfIndex idx).isSome = Instr.registerLegal idx := by
  unfold registerOfIndex Instr.registerLegal
  split <;> simp_all

/-- CFG_PINS's check of its fields is what R92 and R136 call legal. -/
theorem pinsValid_eq_wellFormed (csr csw mode rst int : BitVec 4) (pres : BitVec 8) (var : SeqVariant)
    (bpol : BlankPolarity) (dsh : Bool) :
    pinsValid csr csw mode rst int pres = (Instr.cfgPins csr csw mode rst int pres var bpol dsh).WellFormed := by
  have present : (pres == 0xFF) = Instr.portsPresent pres := by
    rw [Bool.eq_iff_iff, beq_iff_eq, Instr.portsPresent, decide_eq_true_iff, ← BitVec.toNat_inj]
    rfl
  have differ (a b : BitVec 4) : (a != b) = decide (a ≠ b) := by rw [Bool.eq_iff_iff, bne_iff_ne, decide_eq_true_iff]
  simp only [pinsValid, present, differ, Instr.WellFormed, Instr.pinInRange, Instr.pinsDistinct, Bool.and_assoc]

/-- A bulk command's check of its lengths is what R92 calls legal. -/
theorem lengthsValid_eq_countLegal (l m : BitVec 16) :
    lengthsValid l m = (Instr.countLegal l && Instr.countLegal m) := by
  have one (x : BitVec 16) : (x != 0) = Instr.countLegal x := by
    rw [Bool.eq_iff_iff, bne_iff_ne, Instr.countLegal, decide_eq_true_iff, ne_eq, ← BitVec.toNat_inj]
    exact Nat.pos_iff_ne_zero.symm
  rw [lengthsValid, one, one]

/-- Every command runs the steps of its list (R101, R102, R106). -/
theorem exec_eq_execute (i : Instr) (s : State) : exec i s = execute (stepsOf s i) s := by
  cases i with
  | cfgPins csr csw mode rst int pres var bpol dsh =>
    exact (command_eq _ _ _ s).trans (by rw [pinsValid_eq_wellFormed (var := var) (bpol := bpol) (dsh := dsh)]; rfl)
  | nop => exact command_eq true [] .zero s
  | clearFlags => exact command_eq true [.clearOvr, .clearIll] .zero s
  | initDevice md flags txt bg =>
    refine Eq.trans ?_ (command_operand (isSome_modeOfCode md) (gReady s) (fun m => initDeviceOps s m flags txt bg) s)
    simp only [exec, execInitDevice]
    cases modeOfCode md <;> rfl
  | setMode md =>
    refine Eq.trans ?_ (command_operand (isSome_modeOfCode md) (gReady s)
      (fun m => applyMode s.params s.seqVariant m s.r1mir s.colmir s.tbase) s)
    simp only [exec, execSetMode]
    cases modeOfCode md <;> rfl
  | setRegRaw idx val =>
    refine Eq.trans ?_ (command_operand (isSome_registerOfIndex idx) (gReady s)
      (fun i => programRegister s.seqVariant i val) s)
    simp only [exec, execSetRegRaw]
    cases registerOfIndex idx <;> rfl
  | setTableBase a t =>
    refine Eq.trans ?_ (command_operand (isSome_tableOfId t) (gCfg s) (fun tbl => [.setTable tbl a]) s)
    simp only [exec, execSetTableBase]
    cases tableOfId t <;> rfl
  | bulkWrite h l m =>
    exact (bulkCommand_eq _ _ s).trans (by rw [lengthsValid_eq_countLegal]; rfl)
  | bulkRead h l m =>
    exact (bulkCommand_eq _ _ s).trans (by rw [lengthsValid_eq_countLegal]; rfl)
  | _ => exact command_eq _ _ _ s

/-- A command's steps do not depend on what is still to land. -/
theorem stepsOf_withInputs (s : State) (l : List Input) (i : Instr) :
    stepsOf { s with inputs := l } i = stepsOf s i := by
  cases i <;> rfl

/-- A command's steps are those of the state before its word was accepted (R101). -/
theorem stepsOf_acceptCommand (w : CommandWord) (s : State) (i : Instr) :
    stepsOf (acceptCommand w s) i = stepsOf s i := by
  cases i <;> rfl

/-- The steps that a word starts: those of its command, or R95's no-op. -/
def acceptedSteps (w : CommandWord) (s : State) : List MicroOp :=
  match decode w with
  | .ok i => stepsOf s i
  | .error _ => [.setIll, .noop false]

theorem startCommand_eq (w : CommandWord) (s : State) :
    startCommand w s = .next (runOps (acceptedSteps w s) (acceptCommand w s)) := by
  cases h : decode w with
  | error e => simp only [startCommand, acceptedSteps, h]; rfl
  | ok i => simp only [startCommand, acceptedSteps, h, exec_eq_execute, stepsOf_acceptCommand]; rfl

/-- The decoder keeps the opcode (R94). -/
theorem opcode_of_decode {w : CommandWord} {i : Instr} (h : decode w = .ok i) : i.opcode = opcodeOf w := by
  apply BitVec.eq_of_toNat_eq
  unfold decode at h
  split at h <;> cases h <;> simp only [Instr.opcode, *] <;> rfl

end Sys2Proof.Machine

/-! Footprints: the state in parts, and which of them a step, a command and a landing can write. -/

namespace Sys2Proof.Machine

open Sys2Proof.Expected

/-! ## The parts of the state -/

/-- The parts of the state, grouped by the commands that may write them. -/
inductive Part where
  /-- The pin roles, the strategy bits and CONFIGURED (R24-R26). -/
  | pins
  /-- PORTS_INIT, CTRL_DIR and INT_DIR (R27, R29, R33). -/
  | ports
  /-- DDIR (R31). -/
  | ddir
  /-- CURMODE (R34). -/
  | mode
  /-- R1MIR (R35). -/
  | mirror
  /-- COLMIR (R36). -/
  | colour
  /-- TBASE (R37). -/
  | bases
  /-- VDPSTAT and the count of draws (R39). -/
  | status
  /-- PARTIAL, PACED and WAIT_INT (R44-R46). -/
  | burst
  /-- HOSTMEM (R60). -/
  | memory
  /-- OVR and ILL (R41, R42). -/
  | sticky
  /-- The trace, the VDP, CTRL_OUT and DOUT (R28, R30, R120). -/
  | bus
  /-- What no command of the adapter's writes: its parameters, CW, ARST and the host's own data. -/
  | fixed
deriving DecidableEq

/-- A state with one part as it is, and the reset values elsewhere. -/
def Part.view (s : State) : Part → State
  | .pins =>
      { State.reset with
        configured := s.configured, idxCsr := s.idxCsr, idxCsw := s.idxCsw, idxMode := s.idxMode, idxReset := s.idxReset
        idxInt := s.idxInt, seqVariant := s.seqVariant, blankPol := s.blankPol, dshared := s.dshared }
  | .ports => { State.reset with portsInit := s.portsInit, ctrlDir := s.ctrlDir, intDir := s.intDir }
  | .ddir => { State.reset with ddir := s.ddir }
  | .mode => { State.reset with curMode := s.curMode }
  | .mirror => { State.reset with r1mir := s.r1mir }
  | .colour => { State.reset with colmir := s.colmir }
  | .bases => { State.reset with tbase := s.tbase }
  | .status => { State.reset with vdpstat := s.vdpstat, draws := s.draws }
  | .burst => { State.reset with partialFlag := s.partialFlag, pacedFlag := s.pacedFlag, waitInt := s.waitInt }
  | .memory => { State.reset with hostmem := s.hostmem }
  | .sticky => { State.reset with ovr := s.ovr, ill := s.ill }
  | .bus => { State.reset with trace := s.trace, vdp := s.vdp, ctrlOut := s.ctrlOut, dout := s.dout }
  | .fixed =>
      { State.reset with
        params := s.params, cw := s.cw, arst := s.arst, inputs := s.inputs, reads := s.reads, memReads := s.memReads
        hostmemBefore := s.hostmemBefore }

/-- Two states agree on a part. -/
def Agree (part : Part) (s t : State) : Prop := part.view t = part.view s

namespace Agree

theorem refl (part : Part) (s : State) : Agree part s s := rfl

theorem trans {part : Part} {s t u : State} (h : Agree part s t) (h' : Agree part t u) : Agree part s u :=
  Eq.trans h' h

variable {s t : State}

theorem pins (h : Agree .pins s t) :
    t.configured = s.configured ∧ t.idxCsr = s.idxCsr ∧ t.idxCsw = s.idxCsw ∧ t.idxMode = s.idxMode ∧
      t.idxReset = s.idxReset ∧ t.idxInt = s.idxInt ∧ t.seqVariant = s.seqVariant ∧ t.blankPol = s.blankPol ∧
      t.dshared = s.dshared :=
  ⟨(congrArg State.configured h :), (congrArg State.idxCsr h :), (congrArg State.idxCsw h :),
    (congrArg State.idxMode h :), (congrArg State.idxReset h :), (congrArg State.idxInt h :),
    (congrArg State.seqVariant h :), (congrArg State.blankPol h :),
    (congrArg State.dshared h :)⟩

theorem ports (h : Agree .ports s t) : t.portsInit = s.portsInit ∧ t.ctrlDir = s.ctrlDir ∧ t.intDir = s.intDir :=
  ⟨(congrArg State.portsInit h :), (congrArg State.ctrlDir h :), (congrArg State.intDir h :)⟩

theorem ddir (h : Agree .ddir s t) : t.ddir = s.ddir := (congrArg State.ddir h :)

theorem mode (h : Agree .mode s t) : t.curMode = s.curMode := (congrArg State.curMode h :)

theorem mirror (h : Agree .mirror s t) : t.r1mir = s.r1mir := (congrArg State.r1mir h :)

theorem colour (h : Agree .colour s t) : t.colmir = s.colmir := (congrArg State.colmir h :)

theorem bases (h : Agree .bases s t) : t.tbase = s.tbase := (congrArg State.tbase h :)

theorem status (h : Agree .status s t) : t.vdpstat = s.vdpstat ∧ t.draws = s.draws :=
  ⟨(congrArg State.vdpstat h :), (congrArg State.draws h :)⟩

theorem burst (h : Agree .burst s t) :
    t.partialFlag = s.partialFlag ∧ t.pacedFlag = s.pacedFlag ∧ t.waitInt = s.waitInt :=
  ⟨(congrArg State.partialFlag h :), (congrArg State.pacedFlag h :), (congrArg State.waitInt h :)⟩

theorem memory (h : Agree .memory s t) : t.hostmem = s.hostmem := (congrArg State.hostmem h :)

theorem sticky (h : Agree .sticky s t) : t.ovr = s.ovr ∧ t.ill = s.ill :=
  ⟨(congrArg State.ovr h :), (congrArg State.ill h :)⟩

theorem bus (h : Agree .bus s t) :
    t.trace = s.trace ∧ t.vdp = s.vdp ∧ t.ctrlOut = s.ctrlOut ∧ t.dout = s.dout :=
  ⟨(congrArg State.trace h :), (congrArg State.vdp h :), (congrArg State.ctrlOut h :), (congrArg State.dout h :)⟩

theorem fixed (h : Agree .fixed s t) :
    t.params = s.params ∧ t.cw = s.cw ∧ t.arst = s.arst ∧ t.inputs = s.inputs ∧ t.reads = s.reads ∧
      t.memReads = s.memReads ∧ t.hostmemBefore = s.hostmemBefore :=
  ⟨(congrArg State.params h :), (congrArg State.cw h :), (congrArg State.arst h :), (congrArg State.inputs h :),
    (congrArg State.reads h :), (congrArg State.memReads h :), (congrArg State.hostmemBefore h :)⟩

end Agree

/-- The sequencer's position is no part. -/
theorem Part.view_withTodo (part : Part) (s : State) (l : List MicroOp) :
    part.view { s with todo := l } = part.view s := by
  cases part <;> rfl

/-! ## What a step of the pseudocode writes -/

/-- The parts a step of the pseudocode may write. -/
def MicroOp.parts : MicroOp → List Part
  | .assertLine _ | .deassertLine _ | .putData _ | .putHeld | .delay | .hostRead _ _ => [.bus]
  | .setDir _ | .restoreDir => [.ddir, .bus]
  | .sampleData => [.bus, .status]
  | .enterWait => [.burst]
  | .windowWait => [.burst, .bus, .status]
  | .hostWrite _ _ => [.memory, .bus]
  | .setPin _ _ | .setVariant _ | .setBlankPol _ | .setShared _ | .setConfigured => [.pins]
  | .rolesOutput | .intInput => [.ports, .bus]
  | .portsReady => [.ports]
  | .setTable _ _ => [.bases]
  | .setR1 _ => [.mirror]
  | .setColour _ => [.colour]
  | .setMode _ => [.mode]
  | .latchStatus => [.status]
  | .setPartial _ | .setPaced => [.burst]
  | .clearOvr | .clearIll | .setIll => [.sticky]
  | .noop bulk => if bulk then [.burst] else []
  | .saveDir | .setPace _ | .setCount _ | .setIndex _ | .finish _ => []

/-- A step leaves the parts alone that it does not write. -/
theorem agree_perform {part : Part} {op : MicroOp} (h : part ∉ op.parts) (s : State) : Agree part s (perform op s) := by
  cases part with
  | pins =>
    cases op with
    | setPin | setVariant | setBlankPol | setShared | setConfigured => simp [MicroOp.parts] at h
    | _ => rfl
  | ports =>
    cases op with
    | rolesOutput | intInput | portsReady => simp [MicroOp.parts] at h
    | _ => rfl
  | ddir =>
    cases op with
    | setDir | restoreDir => simp [MicroOp.parts] at h
    | _ => rfl
  | mode =>
    cases op with
    | setMode => simp [MicroOp.parts] at h
    | _ => rfl
  | mirror =>
    cases op with
    | setR1 => simp [MicroOp.parts] at h
    | _ => rfl
  | colour =>
    cases op with
    | setColour => simp [MicroOp.parts] at h
    | _ => rfl
  | bases =>
    cases op with
    | setTable => simp [MicroOp.parts] at h
    | _ => rfl
  | status =>
    cases op with
    | sampleData | windowWait | latchStatus => simp [MicroOp.parts] at h
    | _ => rfl
  | burst =>
    cases op with
    | enterWait | windowWait | setPartial | setPaced => simp [MicroOp.parts] at h
    | noop bulk => cases bulk <;> [rfl; simp [MicroOp.parts] at h]
    | _ => rfl
  | memory =>
    cases op with
    | hostWrite => simp [MicroOp.parts] at h
    | _ => rfl
  | sticky =>
    cases op with
    | clearOvr | clearIll | setIll => simp [MicroOp.parts] at h
    | _ => rfl
  | bus =>
    cases op with
    | assertLine | deassertLine | putData | putHeld | setDir | restoreDir | sampleData | windowWait | delay | hostRead
    | hostWrite | rolesOutput | intInput => simp [MicroOp.parts] at h
    | _ => rfl
  | fixed => cases op <;> rfl

theorem Agree.perform {part : Part} {s u : State} (h : Agree part s u) {op : MicroOp} (hop : part ∉ op.parts) :
    Agree part s (perform op u) := h.trans (agree_perform hop u)

/-! ## What a command writes -/

/-- Every step of a list writes only the parts `ps`. -/
def Within (ps : List Part) (ops : List MicroOp) : Prop := ∀ op ∈ ops, ∀ part ∈ op.parts, part ∈ ps

namespace Within

variable {ps : List Part}

theorem nil : Within ps [] := nofun

theorem cons {op : MicroOp} {ops : List MicroOp} (h : ∀ part ∈ op.parts, part ∈ ps) (hs : Within ps ops) :
    Within ps (op :: ops) := List.forall_mem_cons.mpr ⟨h, hs⟩

theorem append {a b : List MicroOp} (ha : Within ps a) (hb : Within ps b) : Within ps (a ++ b) :=
  List.forall_mem_append.mpr ⟨ha, hb⟩

theorem mono {qs : List Part} {ops : List MicroOp} (h : Within ps ops) (sub : ∀ part ∈ ps, part ∈ qs) : Within qs ops :=
  fun op ho part hp => sub part (h op ho part hp)

theorem flatMap {α : Type} {f : α → List MicroOp} (h : ∀ x, Within ps (f x)) (l : List α) :
    Within ps (l.flatMap f) := by
  intro op ho
  obtain ⟨x, -, hx⟩ := List.mem_flatMap.mp ho
  exact h x op hx

theorem elim {α : Type} {f : α → List MicroOp} (h : ∀ x, Within ps (f x)) (o : Option α) :
    Within ps (o.elim [] f) := by
  cases o with
  | none => exact nil
  | some x => exact h x

theorem not_mem {ops : List MicroOp} (h : Within ps ops) {part : Part} (hp : part ∉ ps) :
    ∀ op ∈ ops, part ∉ op.parts := fun op ho hm => hp (h op ho part hm)

end Within

theorem within_frame2 {ps : List Part} (bus : .bus ∈ ps) (variant : SeqVariant) (b1 b2 : Byte) :
    Within ps (frame2 variant b1 b2) := by
  cases variant <;> simp [Within, frame2, writePulse, MicroOp.parts, bus]

theorem within_statusRead {ps : List Part} (bus : .bus ∈ ps) (ddir : .ddir ∈ ps) (status : .status ∈ ps)
    (variant : SeqVariant) : Within ps (statusRead variant ++ [.latchStatus]) := by
  cases variant <;> simp [Within, statusRead, readPulse, MicroOp.parts, bus, ddir, status]

theorem within_byteLoop {ps : List Part} (bus : .bus ∈ ps) (paced : Bool) {byte : List MicroOp} (h : Within ps byte)
    (n : Nat) : Within ps (byteLoop paced byte n) := by
  refine .flatMap (fun k => .cons (op := .setIndex _) nofun (.append ?_ h)) _
  split
  · exact .cons (List.forall_mem_singleton.mpr bus) .nil
  · exact .nil

/-- A bulk command moves bytes within the parts `ps`, and the end of its burst is its own (R194, R195). -/
theorem within_burstOps {ps : List Part} (bus : .bus ∈ ps) (ddir : .ddir ∈ ps) (status : .status ∈ ps)
    (burst : .burst ∈ ps) (variant : SeqVariant) (paced : Bool) (count l : BitVec 16) {byte : List MicroOp}
    (h : Within ps byte) : Within ps (burstOps variant paced count l byte) := by
  have flags : Within ps [.setPartial l, .setPaced] := by simp [Within, MicroOp.parts, burst]
  have read := within_statusRead bus ddir status variant
  have steps := (Within.cons (op := .setCount count) nofun (within_byteLoop bus paced h count.toNat)).append
    (read.append flags)
  simpa [burstOps] using steps

theorem within_applyMode {ps : List Part} (bus : .bus ∈ ps) (mode : .mode ∈ ps) (c : Params) (variant : SeqVariant)
    (m : Mode) (r1 colour : Byte) (b : TableBases) : Within ps (applyMode c variant m r1 colour b) :=
  .append (.flatMap (fun _ => within_frame2 bus _ _ _) _) (.cons (List.forall_mem_singleton.mpr mode) .nil)

/-- The parts the bytes of a bulk command and its wait may write. -/
def bulkParts : List Part := [.status, .burst, .bus, .ddir, .memory]

/-- The parts a command may write. -/
def partsOf : Instr → List Part
  | .nop => []
  | .cfgPins .. => [.pins]
  | .initPorts => [.ports, .ddir, .bus]
  | .initDevice .. => [.mirror, .colour, .mode, .bus]
  | .setMode .. => [.mode, .bus]
  | .setBlank _ | .setIrqEnable _ | .setSpriteSize _ | .setSpriteMag _ => [.mirror, .bus]
  | .setTextColor _ | .setBgColor _ => [.colour, .bus]
  | .setRegRaw .. | .setAddr .. => [.bus]
  | .bulkWrite .. => [.status, .burst, .bus, .ddir]
  | .bulkRead .. => bulkParts
  | .readStatus => [.status, .bus, .ddir]
  | .setTableBase .. => [.bases]
  | .clearFlags => [.sticky]

theorem within_writeByte (h m : BitVec 16) : Within [.status, .burst, .bus, .ddir] (writeByte h m) := by
  simp [Within, writeByte, MicroOp.parts]

theorem within_readByte (h m : BitVec 16) : Within bulkParts (readByte h m) := by
  simp [Within, bulkParts, readByte, readPulse, MicroOp.parts]

theorem within_bulkOps {ps : List Part} (bus : .bus ∈ ps) (ddir : .ddir ∈ ps) (status : .status ∈ ps)
    (burst : .burst ∈ ps) (s : State) (l : BitVec 16) {byte : List MicroOp} (h : Within ps byte) :
    Within ps (bulkOps s l byte) := by
  refine .append (.append (.cons nofun .nil) ?_) (within_burstOps bus ddir status burst _ _ _ _ h)
  unfold windowWait
  split
  · simp [Within, MicroOp.parts, burst, bus, status]
  · exact .nil

theorem within_r1SetterOps (s : State) (v : Byte) : Within [.mirror, .bus] (r1SetterOps s v) :=
  .cons (by simp [MicroOp.parts]) (within_frame2 (by simp) _ _ _)

theorem within_colourSetterOps (s : State) (v : Byte) : Within [.colour, .bus] (colourSetterOps s v) :=
  .cons (by simp [MicroOp.parts]) (within_frame2 (by simp) _ _ _)

/-- The steps of a command's body write only the parts that are the command's. -/
theorem within_bodyOf (s : State) (i : Instr) : Within (partsOf i) (bodyOf s i) := by
  cases i with
  | nop => exact .nil
  | cfgPins => simp [Within, partsOf, bodyOf, configureOps, MicroOp.parts]
  | initPorts => simp [Within, partsOf, bodyOf, initPortsOps, MicroOp.parts]
  | initDevice =>
    refine .elim (fun m => .cons (by simp [MicroOp.parts, partsOf]) (.cons (by simp [MicroOp.parts, partsOf]) ?_)) _
    exact within_applyMode (by simp [partsOf]) (by simp [partsOf]) _ _ _ _ _ _
  | setMode => exact .elim (fun m => within_applyMode (by simp [partsOf]) (by simp [partsOf]) _ _ _ _ _ _) _
  | setBlank | setIrqEnable | setSpriteSize | setSpriteMag => exact within_r1SetterOps _ _
  | setTextColor | setBgColor => exact within_colourSetterOps _ _
  | setRegRaw => exact .elim (fun _ => within_frame2 (by simp [partsOf]) _ _ _) _
  | setAddr => exact within_frame2 (by simp [partsOf]) _ _ _
  | bulkWrite h l m =>
    exact within_bulkOps (by simp [partsOf]) (by simp [partsOf]) (by simp [partsOf]) (by simp [partsOf]) _ _
      (within_writeByte h m)
  | bulkRead h l m =>
    exact within_bulkOps (by simp [partsOf, bulkParts]) (by simp [partsOf, bulkParts]) (by simp [partsOf, bulkParts])
      (by simp [partsOf, bulkParts]) _ _ (within_readByte h m)
  | readStatus => exact within_statusRead (by simp [partsOf]) (by simp [partsOf]) (by simp [partsOf]) _
  | setTableBase => exact .elim (fun _ => .cons (by simp [MicroOp.parts, partsOf]) .nil) _
  | clearFlags => simp [Within, partsOf, bodyOf, MicroOp.parts]

/-- Only a bulk command's no-op clears PARTIAL and PACED (R104). -/
theorem burst_mem_partsOf_of_isBulk {i : Instr} (h : isBulk i = true) : .burst ∈ partsOf i := by
  cases i with
  | bulkWrite | bulkRead => simp [partsOf, bulkParts]
  | _ => simp [isBulk, Instr.opcode] at h

theorem within_noop {ps : List Part} {bulk : Bool} (h : bulk = true → .burst ∈ ps) : Within ps [.noop bulk] := by
  cases bulk with
  | false => exact .cons nofun .nil
  | true => exact .cons (List.forall_mem_singleton.mpr (h rfl)) .nil

/-- The steps of a command, its guard and its end among them, write only the parts that are the command's. -/
theorem within_stepsOf (s : State) (i : Instr) : Within (partsOf i) (stepsOf s i) := by
  unfold stepsOf
  split
  · exact (within_bodyOf s i).append (.cons nofun .nil)
  · exact within_noop burst_mem_partsOf_of_isBulk

/-- The steps of a command in its window wait. -/
theorem within_waitingOps (s : State) (l : BitVec 16) {byte : List MicroOp} (h : Within bulkParts byte) :
    Within bulkParts (waitingOps s l byte) := by
  refine .cons (by simp [MicroOp.parts, bulkParts]) (.append ?_ (.cons nofun .nil))
  exact within_burstOps (by simp [bulkParts]) (by simp [bulkParts]) (by simp [bulkParts]) (by simp [bulkParts]) _ _ _ _
    h

end Sys2Proof.Machine

/-! Keeping a property along a step of the machine, with nothing that interrupts and whatever lands; two runs side by
side. -/

namespace Sys2Proof.Machine

open Sys2Proof.Expected

/-! ## With nothing that interrupts -/

/-- Steps that do not write a part leave it as it was. -/
theorem agree_runOps_quiet {part : Part} {ops : List MicroOp} {s : State} (hi : hostWaits s.inputs = true)
    (ha : s.arst = false) (h : ∀ op ∈ ops, part ∉ op.parts) : Agree part s (runOps ops s) :=
  runOps_quiet_keeps (fun u => part.view u) ops s hi ha part.view_withTodo fun op ho u => agree_perform (h op ho) u

/-- A command that nothing interrupts leaves the parts alone that are not its own. -/
theorem agree_exec_quiet {part : Part} {i : Instr} {s t : State} (hq : Quiet s) (e : exec i s = .next t)
    (h : part ∉ partsOf i) : Agree part s t := by
  rw [exec_eq_execute] at e
  cases e
  have busy : Agree part s { s with busy := true } := by cases part <;> rfl
  exact busy.trans (agree_runOps_quiet (s := { s with busy := true }) hq.inputs hq.arst
    ((within_stepsOf s i).not_mem h))

/-- A list whose front part keeps something step by step, and whose rest, without a window wait, keeps it as a whole. -/
theorem runOps_quiet_keeps_append {α : Type} (f : State → α) (todo : ∀ s l, f { s with todo := l } = f s)
    {a b : List MicroOp} (front : ∀ op ∈ a, ∀ u, f (perform op u) = f u) (rest : ∀ u, f (performAll b u) = f u)
    (hw : MicroOp.windowWait ∉ b) {s : State} (hi : hostWaits s.inputs = true) (ha : s.arst = false) :
    f (runOps (a ++ b) s) = f s := by
  induction a generalizing s with
  | nil => rw [List.nil_append, runOps_quiet hi ha hw, todo, rest]
  | cons op a ih =>
    have keep : f (perform op s) = f s := front op List.mem_cons_self s
    have goOn : f (runOps (a ++ b) (perform op s)) = f s :=
      (ih (fun o ho => front o (List.mem_cons_of_mem _ ho)) (by simpa using hi) (by simpa using ha)).trans keep
    rw [List.cons_append]
    by_cases hop : op = .windowWait
    · subst hop
      rw [runOps_windowWait_quiet _ hi ha]
      split
      · exact goOn
      · exact (todo _ _).trans keep
    · rw [runOps_cons_quiet _ hi ha hop]
      exact goOn

/-- A status read restores DDIR, from whatever bus (R230). -/
theorem performAll_statusRead_ddir (variant : SeqVariant) (s : State) :
    (performAll (statusRead variant) s).ddir = s.ddir := by
  cases variant <;> simp [statusRead, readPulse, perform, assertOp, deassertOp]

/-- DDIR is as it was after steps of which a status read alone writes it. -/
theorem runOps_quiet_ddir {a b : List MicroOp} (variant : SeqVariant) (front : ∀ op ∈ a, .ddir ∉ op.parts)
    (back : ∀ op ∈ b, .ddir ∉ op.parts) (hw : MicroOp.windowWait ∉ b) {s : State} (hi : hostWaits s.inputs = true)
    (ha : s.arst = false) : (runOps (a ++ (statusRead variant ++ b)) s).ddir = s.ddir := by
  have keep {op : MicroOp} (h : .ddir ∉ op.parts) (u : State) : (perform op u).ddir = u.ddir := (agree_perform h u).ddir
  have rest (u : State) : (performAll b u).ddir = u.ddir := by
    induction b generalizing u with
    | nil => rfl
    | cons op b ih =>
      obtain ⟨hop, hb⟩ := List.forall_mem_cons.mp back
      exact (ih hb (fun h => hw (List.mem_cons_of_mem _ h)) _).trans (keep hop u)
  refine runOps_quiet_keeps_append State.ddir (fun _ _ => rfl) (fun op ho => keep (front op ho)) (fun u => ?_) ?_ hi ha
  · rw [performAll_append, rest, performAll_statusRead_ddir]
  · exact fun h => (List.mem_append.mp h).elim (windowWait_not_mem_statusRead variant) hw

/-- A bulk command that nothing interrupts leaves DDIR as it was (R201, R230). -/
theorem runOps_quiet_bulkOps_ddir {s u : State} {l : BitVec 16} {byte : List MicroOp}
    (h : Within [.memory, .bus, .status] byte) (hi : hostWaits u.inputs = true) (ha : u.arst = false) :
    (runOps (bulkOps s l byte ++ [.finish .count]) u).ddir = u.ddir := by
  have wait : Within [.memory, .bus, .status, .burst] (windowWait (gate s)) := by
    unfold windowWait
    split <;> simp [Within, MicroOp.parts]
  have bytes : Within [.memory, .bus, .status, .burst] byte := h.mono (by simp)
  have front := (Within.cons (op := .setPace (gate s)) nofun wait).append
    (.cons (op := .setCount (effectiveCount s.params (gate s) l)) nofun
      (within_byteLoop (by simp) (gate s) bytes (effectiveCount s.params (gate s) l).toNat))
  have run := runOps_quiet_ddir s.seqVariant (front.not_mem (part := .ddir) (by simp))
    (b := [.latchStatus, .setPartial l, .setPaced, .finish .count]) (by simp [MicroOp.parts]) (by simp) hi ha
  simpa [bulkOps, burstOps] using run

/-- Every command but INIT_PORTS leaves DDIR as it was (R31, R232). -/
theorem exec_quiet_ddir {i : Instr} {s t : State} (hq : Quiet s) (e : exec i s = .next t) (h : i ≠ .initPorts) :
    t.ddir = s.ddir := by
  by_cases hp : .ddir ∈ partsOf i
  · rw [exec_eq_execute] at e
    cases e
    have noop (bulk : Bool) : (runOps [.noop bulk] { s with busy := true }).ddir = s.ddir :=
      (agree_runOps_quiet (ops := [.noop bulk]) (s := { s with busy := true }) hq.inputs hq.arst
        (by cases bulk <;> simp [MicroOp.parts])).ddir
    unfold stepsOf
    split
    · cases i with
      | bulkWrite h l m =>
        exact runOps_quiet_bulkOps_ddir (by simp [Within, writeByte, MicroOp.parts]) hq.inputs hq.arst
      | bulkRead h l m =>
        exact runOps_quiet_bulkOps_ddir (by simp [Within, readByte, readPulse, MicroOp.parts]) hq.inputs hq.arst
      | readStatus =>
        have steps : bodyOf s .readStatus ++ [.finish (resultOf .readStatus)] =
            [] ++ (statusRead s.seqVariant ++ [.latchStatus, .finish .status]) := List.append_assoc _ _ _
        rw [steps]
        exact runOps_quiet_ddir s.seqVariant (by simp) (by simp [MicroOp.parts]) (by simp) hq.inputs hq.arst
      | initPorts => exact absurd rfl h
      | _ => simp [partsOf] at hp
    · exact noop _
  · exact (agree_exec_quiet hq e hp).ddir

/-- A command without a result leaves RESULT = 0 (R38). -/
theorem exec_quiet_result {i : Instr} {s t : State} (hq : Quiet s) (e : exec i s = .next t) (h : .burst ∉ partsOf i)
    (hr : resultOf i = .zero) : t.result = 0 := by
  have noWait : MicroOp.windowWait ∉ stepsOf s i := fun hw =>
    (within_stepsOf s i).not_mem h _ hw (by simp [MicroOp.parts])
  rw [exec_eq_execute, execute, runOps_quiet (s := { s with busy := true }) hq.inputs hq.arst noWait] at e
  cases e
  unfold stepsOf
  split
  · rw [hr, performAll_append]; rfl
  · rfl

/-! ## Whatever lands -/

/-- What a landing short of ARST may write: OVR, the two host-writable ports, the memories, the level of ARST, and what
is not the adapter's. It never clears OVR (R41, R134, R135). -/
theorem landInput_writes {i : Input} (hi : i ≠ .arst true) (s : State) :
    ∃ ovr ctrlOut ctrlDir trace vdp hostmem hostmemBefore reads memReads arst,
      landInput i s =
        { s with ovr, ctrlOut, ctrlDir, trace, vdp, hostmem, hostmemBefore, reads, memReads, arst } ∧
      (s.ovr = true → ovr = true) := by
  cases i with
  | arst b => cases b <;> [exact ⟨_, _, _, _, _, _, _, _, _, _, rfl, id⟩; exact absurd rfl hi]
  | command w =>
    simp only [landInput, dropCommand]
    split
    · exact ⟨_, _, _, _, _, _, _, _, _, _, rfl, id⟩
    · exact ⟨_, _, _, _, _, _, _, _, _, _, rfl, fun _ => rfl⟩
  | ctrlWrite m v => simp only [landInput]; split <;> exact ⟨_, _, _, _, _, _, _, _, _, _, rfl, id⟩
  | ctrlDirWrite m v => simp only [landInput]; split <;> exact ⟨_, _, _, _, _, _, _, _, _, _, rfl, id⟩
  | _ => exact ⟨_, _, _, _, _, _, _, _, _, _, rfl, id⟩

/-- A property that no landing but ARST ends, and that the sequencer's own marks do not matter to. -/
structure Standing (P : State → Prop) : Prop where
  land : ∀ i u, i ≠ .arst true → P u → P (landInput i u)
  inputs : ∀ u l, P u → P { u with inputs := l }
  todo : ∀ u l, P u → P { u with todo := l }
  accept : ∀ w u, P u → P (acceptCommand w u)

namespace Standing

variable {P : State → Prop}

/-- A standing property that the steps of a list keep holds after them, or reset has landed. -/
theorem runOps (h : Standing P) {ops : List MicroOp} {s : State} (hs : P s) (ha : s.arst = false)
    (steps : ∀ op ∈ ops, ∀ u, P u → P (perform op u)) :
    runOps ops s = heldInReset (runOps ops s) ∨ P (runOps ops s) := by
  refine runOps_induct (P := fun ops u => P u ∧ ∀ op ∈ ops, ∀ u, P u → P (perform op u))
    (Q := fun t => t = heldInReset t ∨ P t) ?land ?inputs ?reset ?step ?done ?wait ops s ⟨hs, steps⟩ ha
  case land => exact fun _ i u ⟨hu, keep⟩ _ hi => ⟨h.land i u hi hu, keep⟩
  case inputs => exact fun _ u l ⟨hu, keep⟩ => ⟨h.inputs u l hu, keep⟩
  case reset => exact fun _ _ _ _ => .inl rfl
  case step =>
    intro op rest u ⟨hu, keep⟩ _ _
    exact ⟨keep op List.mem_cons_self u hu, fun o ho => keep o (List.mem_cons_of_mem _ ho)⟩
  case done => exact fun u ⟨hu, _⟩ _ => .inr (h.todo u _ hu)
  case wait => exact fun _ u ⟨hu, keep⟩ _ _ => .inr (h.todo _ _ (keep .windowWait List.mem_cons_self u hu))

/-- A standing property holds after a step, or reset has landed, if the steps of the pseudocode that may run keep it:
those of the command that waits, or those of the one whose word is accepted. -/
theorem step (h : Standing P) {s t : State} (hs : P s) (e : step s = .next t)
    (resumed : s.busy = true → ∀ op ∈ s.todo, ∀ u, P u → P (perform op u))
    (started : ∀ w rest, s.busy = false → s.inputs = .command w :: rest →
      ∀ op ∈ acceptedSteps w s, ∀ u, P u → P (perform op u)) :
    t = heldInReset t ∨ P t := by
  obtain ⟨busy, arst, rfl⟩ | ⟨-, -, rfl⟩ | ⟨i, rest, -, -, -, rfl⟩ | ⟨w, rest, he, busy, arst, e⟩ := step_cases e
  · exact h.runOps hs arst (resumed busy)
  · exact .inr hs
  · by_cases hi : i = .arst true
    · subst hi
      exact .inl rfl
    · exact .inr (h.land i _ hi (h.inputs s rest hs))
  · rw [startCommand_eq] at e
    cases e
    have sameSteps : acceptedSteps w { s with inputs := rest } = acceptedSteps w s := by
      simp only [acceptedSteps, stepsOf_withInputs]
    refine h.runOps (h.accept w _ (h.inputs s rest hs)) arst ?_
    rw [sameSteps]
    exact started w rest busy he

end Standing

/-- The parts of the adapter's configuration and device state, which only its own commands write (R24-R26, R34-R37). -/
def ownParts : List Part := [.pins, .mode, .mirror, .colour, .bases]

theorem standing_agree {part : Part} (h : part ∈ ownParts) (s : State) : Standing (Agree part s) := by
  simp only [ownParts, List.mem_cons, List.not_mem_nil, or_false] at h
  constructor
  case land =>
    intro i u hi hu
    obtain ⟨_, _, _, _, _, _, _, _, _, _, e, -⟩ := landInput_writes hi u
    rw [e]
    obtain rfl | rfl | rfl | rfl | rfl := h <;> exact hu
  all_goals
    intros
    obtain rfl | rfl | rfl | rfl | rfl := h <;> assumption

/-- PORTS_INIT stands (R27). -/
theorem standing_portsInit (s : State) : Standing fun u => s.portsInit = true → u.portsInit = true where
  land i u hi hu := by
    obtain ⟨_, _, _, _, _, _, _, _, _, _, e, -⟩ := landInput_writes hi u
    rw [e]
    exact hu
  inputs _ _ hu := hu
  todo _ _ hu := hu
  accept _ _ hu := hu

/-- No step takes PORTS_INIT back (R27). -/
theorem perform_portsInit (op : MicroOp) {s : State} (h : s.portsInit = true) : (perform op s).portsInit = true := by
  cases op with
  | portsReady => rfl
  | _ => exact h

/-- OVR and ILL are as far set as they are in `s` (R41, R42). -/
structure StickyFrom (s u : State) : Prop where
  ovr : s.ovr = true → u.ovr = true
  ill : s.ill = true → u.ill = true

theorem standing_stickyFrom (s : State) : Standing (StickyFrom s) where
  land i u hi hu := by
    obtain ⟨_, _, _, _, _, _, _, _, _, _, e, keep⟩ := landInput_writes hi u
    rw [e]
    exact ⟨fun h => keep (hu.ovr h), hu.ill⟩
  inputs _ _ hu := ⟨hu.ovr, hu.ill⟩
  todo _ _ hu := ⟨hu.ovr, hu.ill⟩
  accept _ _ hu := ⟨hu.ovr, hu.ill⟩

/-- Steps that do not write the sticky flags leave them set. -/
theorem StickyFrom.perform {s u : State} (h : StickyFrom s u) {op : MicroOp} (hop : .sticky ∉ op.parts) :
    StickyFrom s (perform op u) := by
  obtain ⟨ovr, ill⟩ := (agree_perform hop u).sticky
  exact ⟨fun hs => ovr.trans (h.ovr hs), fun hs => ill.trans (h.ill hs)⟩

/-- A command in its window wait: the steps left of it (R7, R193). -/
theorem MachineInv.todo_of_busy {s : State} (h : MachineInv s) (busy : s.busy = true) :
    ∃ l byte, s.todo = waitingOps s l byte ∧ Within bulkParts byte := by
  cases h.position with
  | idle hb => exact absurd (hb.symm.trans busy) Bool.false_ne_true
  | waitingWrite base l m _ _ _ _ _ todo =>
    exact ⟨l, _, todo, (within_writeByte base m).mono (by simp [bulkParts])⟩
  | waitingRead base l m _ _ _ _ _ todo => exact ⟨l, _, todo, within_readByte base m⟩

theorem MachineInv.within_todo {s : State} (h : MachineInv s) (busy : s.busy = true) : Within bulkParts s.todo := by
  obtain ⟨l, byte, todo, bytes⟩ := h.todo_of_busy busy
  rw [todo]
  exact within_waitingOps s l bytes

/-- A word's steps write only what its command may; those of R95's no-op write the sticky flags. -/
theorem within_acceptedSteps (w : CommandWord) (s : State) :
    (∃ i, decode w = .ok i ∧ acceptedSteps w s = stepsOf s i ∧ Within (partsOf i) (acceptedSteps w s)) ∨
      acceptedSteps w s = [.setIll, .noop false] := by
  cases h : decode w with
  | error e => exact .inr (by simp only [acceptedSteps, h])
  | ok i =>
    have steps : acceptedSteps w s = stepsOf s i := by simp only [acceptedSteps, h]
    exact .inl ⟨i, rfl, steps, steps ▸ within_stepsOf s i⟩

/-- A part of the adapter's own changes in a step only by reset, or by a command that may write it and whose word is
accepted in that step. -/
theorem step_own_part {part : Part} (hp : part ∈ ownParts) {s t : State} (h : MachineInv s) (e : step s = .next t) :
    t = heldInReset t ∨ Agree part s t ∨
      ∃ w rest i, s.busy = false ∧ s.inputs = .command w :: rest ∧ decode w = .ok i ∧ part ∈ partsOf i := by
  have keep {op : MicroOp} (hop : part ∉ op.parts) (u : State) (hu : Agree part s u) : Agree part s (perform op u) :=
    hu.perform hop
  have notBulk : part ∉ bulkParts := by
    simp only [ownParts, List.mem_cons, List.not_mem_nil, or_false] at hp
    obtain rfl | rfl | rfl | rfl | rfl := hp <;> decide
  by_cases writer : ∃ w rest i, s.busy = false ∧ s.inputs = .command w :: rest ∧ decode w = .ok i ∧ part ∈ partsOf i
  · exact .inr (.inr writer)
  · refine ((standing_agree hp s).step (.refl part s) e ?_ ?_).imp_right .inl
    · exact fun busy op ho => keep ((h.within_todo busy).not_mem notBulk op ho)
    · intro w rest busy he
      obtain ⟨i, hi, -, within⟩ | illegal := within_acceptedSteps w s
      · exact fun op ho => keep (within.not_mem (fun hm => writer ⟨w, rest, i, busy, he, hi, hm⟩) op ho)
      · rw [illegal]
        have notSticky : part ≠ .sticky := by
          rintro rfl
          simp [ownParts] at hp
        exact List.forall_mem_cons.mpr ⟨keep (by simpa [MicroOp.parts] using notSticky),
          List.forall_mem_cons.mpr ⟨keep (by simp [MicroOp.parts]), nofun⟩⟩

/-! ## Two runs side by side -/

/-- What lands does not depend on what is still to land. -/
theorem landInput_withInputs (i : Input) (s : State) (l : List Input) :
    landInput i { s with inputs := l } = { landInput i s with inputs := l } := by
  cases i with
  | arst b => cases b <;> rfl
  | command w => simp only [landInput, dropCommand]; split <;> rfl
  | ctrlWrite m v => simp only [landInput]; split <;> rfl
  | ctrlDirWrite m v => simp only [landInput]; split <;> rfl
  | _ => rfl

theorem landInputs_withInputs (l m : List Input) (s : State) :
    landInputs l { s with inputs := m } = landInputs l s := by
  induction l generalizing s with
  | nil => rfl
  | cons i l ih =>
    have next : landInputs l (landInput i { s with inputs := m }) = landInputs l (landInput i s) := by
      rw [landInput_withInputs, ih]
    cases i with
    | arst b => cases b <;> [exact next; rfl]
    | advance => rfl
    | waitIdle => rfl
    | _ => exact next

/-- A dropped command word is the first thing to land before a command's next step (R100). -/
theorem runOps_dropped {op : MicroOp} {ops : List MicroOp} {s : State} {w : CommandWord} {l : List Input}
    (h : s.inputs = .command w :: l) :
    runOps (op :: ops) s = runOps (op :: ops) { dropCommand s with inputs := l } := by
  have first : landInputs s.inputs s = landInputs l { dropCommand s with inputs := l } := by
    rw [h]
    exact (landInputs_withInputs l l (dropCommand s)).symm
  rw [runOps, runOps, first]

section

variable {R : State → State → Prop} (land : ∀ i s u, R s u → R (landInput i s) (landInput i u))
  (inputs : ∀ s u l, R s u → R { s with inputs := l } { u with inputs := l })

include land inputs

/-- Two related states take what lands to related states. -/
theorem landInputs_relates (l : List Input) {s u : State} (h : R s u) : R (landInputs l s) (landInputs l u) := by
  induction l generalizing s u with
  | nil => exact inputs _ _ _ h
  | cons i l ih =>
    cases i with
    | arst b => cases b <;> [exact ih (land _ _ _ h); exact land (.arst true) _ _ (inputs _ _ _ h)]
    | advance => exact inputs _ _ _ h
    | waitIdle => exact inputs _ _ _ h
    | _ => exact ih (land _ _ _ h)

/-- A relation that landings and steps keep, and that leaves nothing to choose for the sequencer, holds between the two
ends of a command, whatever lands. -/
theorem runOps_relates (perform : ∀ op s u, R s u → R (perform op s) (perform op u))
    (todo : ∀ s u l, R s u → R { s with todo := l } { u with todo := l })
    (same : ∀ s u, R s u → u.inputs = s.inputs ∧ u.arst = s.arst ∧ u.waitInt = s.waitInt)
    (ops : List MicroOp) {s u : State} (h : R s u) : R (runOps ops s) (runOps ops u) := by
  induction ops generalizing s u with
  | nil => exact todo _ _ _ h
  | cons op ops ih =>
    have landed : R (landInputs s.inputs s) (landInputs u.inputs u) := by
      rw [(same s u h).1]
      exact landInputs_relates land inputs _ h
    obtain ⟨-, arst, -⟩ := same _ _ landed
    have performed := perform op _ _ landed
    obtain ⟨-, -, waitInt⟩ := same _ _ performed
    simp only [runOps, arst]
    split
    · exact landed
    · by_cases hw : op = .windowWait ∧ (Machine.perform op (landInputs s.inputs s)).waitInt = true
      · rw [if_pos hw, if_pos (by rwa [waitInt])]
        exact todo _ _ _ performed
      · rw [if_neg hw, if_neg (by rwa [waitInt])]
        exact ih performed

end

/-- `u` is `s` but for OVR and for what the host has read of the read map (R48). -/
def SameButOvr (s u : State) : Prop := ∃ ovr reads, u = { s with ovr, reads }

namespace SameButOvr

variable {s u : State}

theorem landInput (h : SameButOvr s u) (i : Input) : SameButOvr (landInput i s) (landInput i u) := by
  obtain ⟨ovr, reads, rfl⟩ := h
  cases i with
  | arst b => cases b <;> exact ⟨_, _, rfl⟩
  | command w => simp only [Machine.landInput, dropCommand]; split <;> exact ⟨_, _, rfl⟩
  | ctrlWrite m v => simp only [Machine.landInput]; split <;> exact ⟨_, _, rfl⟩
  | ctrlDirWrite m v => simp only [Machine.landInput]; split <;> exact ⟨_, _, rfl⟩
  | _ => exact ⟨_, _, rfl⟩

/-- No step of the pseudocode reads OVR. -/
theorem perform (h : SameButOvr s u) (op : MicroOp) : SameButOvr (perform op s) (perform op u) := by
  obtain ⟨ovr, reads, rfl⟩ := h
  cases op <;> exact ⟨_, _, rfl⟩

/-- A command runs as it would with another value of OVR. -/
theorem runOps (h : SameButOvr s u) (ops : List MicroOp) : SameButOvr (runOps ops s) (runOps ops u) := by
  refine runOps_relates (fun i _ _ h => h.landInput i) ?inputs (fun op _ _ h => h.perform op) ?todo ?same ops h
  case inputs => rintro s _ l ⟨ovr, reads, rfl⟩; exact ⟨_, _, rfl⟩
  case todo => rintro s _ l ⟨ovr, reads, rfl⟩; exact ⟨_, _, rfl⟩
  case same => rintro s _ ⟨ovr, reads, rfl⟩; exact ⟨rfl, rfl, rfl⟩

end SameButOvr

end Sys2Proof.Machine

/-! The host read map and the reset state (R40, R48, R49). -/

namespace Sys2Proof.Machine

/-! ## Fields of registers written side by side -/

theorem getLsbD_append_low {n m : Nat} (x : BitVec n) (y : BitVec m) {k : Nat} (h : k < m) :
    (x ++ y).getLsbD k = y.getLsbD k := by rw [BitVec.getLsbD_append, if_pos h]

theorem getLsbD_append_high {n m : Nat} (x : BitVec n) (y : BitVec m) {k : Nat} (h : m ≤ k) :
    (x ++ y).getLsbD k = x.getLsbD (k - m) := by rw [BitVec.getLsbD_append, if_neg (Nat.not_lt.mpr h)]

theorem getLsbD_bit1 (b : Bool) : (bit1 b).getLsbD 0 = b := by cases b <;> rfl

/-- Settles O49: STATUS is its bits written side by side, so each is found at its place. The widths are named one by one
for the fields to be told apart. -/
theorem statusBitsFollowTheTable : Obligations.StatusBitsFollowTheTable := by
  intro s
  change
    let bit := BitVec.getLsbD (w := 4 + 3 + 1 + 1 + 1 + 1 + 1 + 1 + 1 + 1 + 1) s.status
    let slice (lo n : Nat) := BitVec.extractLsb' (n := 4 + 3 + 1 + 1 + 1 + 1 + 1 + 1 + 1 + 1 + 1) lo n s.status
    bit 0 = _ ∧ bit 1 = _ ∧ bit 2 = _ ∧ bit 3 = _ ∧ bit 4 = _ ∧ bit 5 = _ ∧ bit 6 = _ ∧ bit 7 = _ ∧ bit 8 = _ ∧
      slice 9 3 = _ ∧ slice 12 4 = _
  simp (disch := decide) only [State.status, getLsbD_append_low, getLsbD_append_high, getLsbD_bit1, Nat.reduceSub,
    BitVec.extractLsb'_append_eq_of_le, BitVec.extractLsb'_append_eq_of_add_le, BitVec.extractLsb'_eq_self, true_and,
    and_true]
  cases s.curMode <;> rfl

/-- PINCFG, field by field (R48). -/
theorem pincfg_fields (s : State) :
    s.pincfg.extractLsb' 0 4 = s.idxCsr ∧ s.pincfg.extractLsb' 4 4 = s.idxCsw ∧ s.pincfg.extractLsb' 8 4 = s.idxMode ∧
      s.pincfg.extractLsb' 12 4 = s.idxReset ∧ s.pincfg.extractLsb' 16 4 = s.idxInt ∧ s.pincfg.extractLsb' 20 8 = 0 ∧
      s.pincfg.getLsbD 28 = s.seqVariant.toBit ∧ s.pincfg.getLsbD 29 = s.blankPol.toBit ∧
      s.pincfg.getLsbD 30 = s.dshared ∧ s.pincfg.getLsbD 31 = s.configured := by
  change
    let bit := BitVec.getLsbD (w := 1 + 1 + 1 + 1 + 8 + 4 + 4 + 4 + 4 + 4) s.pincfg
    let slice (lo n : Nat) := BitVec.extractLsb' (n := 1 + 1 + 1 + 1 + 8 + 4 + 4 + 4 + 4 + 4) lo n s.pincfg
    slice 0 4 = _ ∧ slice 4 4 = _ ∧ slice 8 4 = _ ∧ slice 12 4 = _ ∧ slice 16 4 = _ ∧ slice 20 8 = _ ∧
      bit 28 = _ ∧ bit 29 = _ ∧ bit 30 = _ ∧ bit 31 = _
  simp (disch := decide) only [State.pincfg, getLsbD_append_low, getLsbD_append_high, getLsbD_bit1, Nat.reduceSub,
    BitVec.extractLsb'_append_eq_of_le, BitVec.extractLsb'_append_eq_of_add_le, BitVec.extractLsb'_eq_self, true_and,
    and_true]
  trivial

theorem seqVariant_toBit_iff (v : SeqVariant) : v.toBit = true ↔ v = .modeAfterStrobe := decide_eq_true_iff

theorem blankPolarity_toBit_iff (v : BlankPolarity) : v.toBit = true ↔ v = .setMeansBlanked := decide_eq_true_iff

/-- Settles O50: every index but that of PINCFG gives a register zero-extended, and PINCFG is given field by field. -/
theorem hostReadMapGivesTheRegisters : Obligations.HostReadMapGivesTheRegisters := by
  intro s
  have extended {n : Nat} (x : BitVec n) (h : n ≤ 32) : (x.setWidth 32).toNat = x.toNat := BitVec.toNat_setWidth_of_le h
  have byte (x : Byte) : (x.setWidth 32).toNat = x.toNat := extended x (by decide)
  have base (x : VramAddr) : (x.setWidth 32).toNat = x.toNat := extended x (by decide)
  obtain ⟨csr, csw, mode, reset, int, zero, variant, polarity, shared, configured⟩ := pincfg_fields s
  refine ⟨extended s.status (by decide), extended s.result (by decide), byte s.vdpstat, byte s.r1mir, byte s.colmir,
    base s.tbase.name, base s.tbase.colour, base s.tbase.pattern, base s.tbase.spriteAttribute,
    base s.tbase.spritePattern, ⟨csr, csw, mode, reset, int, zero, ?_, ?_, shared, configured⟩, byte s.ctrlOut,
    byte s.ctrlDir, byte s.dout, byte s.ddir, byte s.intDir, fun _ => rfl⟩
  · exact (Bool.eq_iff_iff.mp variant).trans (seqVariant_toBit_iff _)
  · exact (Bool.eq_iff_iff.mp polarity).trans (blankPolarity_toBit_iff _)

/-! ## Reset -/

/-- Settles O51: both states are the reset record, but for what is not the adapter's. -/
theorem resetLeavesTheTableOfValues : Obligations.ResetLeavesTheTableOfValues := by
  intro s t ht
  obtain rfl | ht := List.mem_cons.mp ht
  · decide
  · obtain rfl := List.mem_singleton.mp ht
    simp only [landInput, assertReset_fields]
    decide

/-- The spec's defaults are legal parameters (R3). -/
theorem params_default_wf : Params.default.Wf where
  budget := nofun
  fieldsOutsideMode := by decide
  fieldsApart := by decide
  modeBitsInside := by decide
  nibblesApart := by decide

/-- Settles O55: the reset state has no pins, no memory contents and no command. -/
theorem resetStateHasTheMachineInvariant : Obligations.ResetStateHasTheMachineInvariant where
  params := params_default_wf
  hostmem := Memory.wf_nil _
  hostmemBefore := Memory.wf_nil _
  unwritten := nofun
  vram := nofun
  pins := nofun
  ports := nofun
  undriven _ := rfl
  idle := nofun
  mirror := BitVec.zero_and
  position := .idle rfl rfl rfl
  held := nofun

end Sys2Proof.Machine

/-! What stands until its own command or reset: the configuration, the sticky flags, the device state (R24-R27, R34-R37,
R41, R42); and which command writes what. -/

namespace Sys2Proof.Machine

open Sys2Proof.Expected

/-! ## The commands that own a part -/

theorem pins_mem_partsOf (i : Instr) : .pins ∈ partsOf i ↔ i.opcode = 0x01 := by
  cases i <;> simp [partsOf, bulkParts, Instr.opcode]

theorem ports_mem_partsOf (i : Instr) : .ports ∈ partsOf i ↔ i.opcode = 0x02 := by
  cases i <;> simp [partsOf, bulkParts, Instr.opcode]

theorem mode_mem_partsOf (i : Instr) : .mode ∈ partsOf i ↔ i.opcode ∈ [0x03#8, 0x04#8] := by
  cases i <;> simp [partsOf, bulkParts, Instr.opcode]

theorem mirror_mem_partsOf (i : Instr) :
    .mirror ∈ partsOf i ↔ i.opcode ∈ [0x03#8, 0x05#8, 0x06#8, 0x07#8, 0x08#8] := by
  cases i <;> simp [partsOf, bulkParts, Instr.opcode]

theorem colour_mem_partsOf (i : Instr) : .colour ∈ partsOf i ↔ i.opcode ∈ [0x03#8, 0x09#8, 0x0A#8] := by
  cases i <;> simp [partsOf, bulkParts, Instr.opcode]

theorem bases_mem_partsOf (i : Instr) : .bases ∈ partsOf i ↔ i.opcode ∈ [0x10#8] := by
  cases i <;> simp [partsOf, bulkParts, Instr.opcode]

theorem status_mem_partsOf (i : Instr) : .status ∈ partsOf i ↔ i.opcode ∈ [0x0D#8, 0x0E#8, 0x0F#8] := by
  cases i <;> simp [partsOf, bulkParts, Instr.opcode]

theorem burst_mem_partsOf (i : Instr) : .burst ∈ partsOf i ↔ i.opcode ∈ [0x0D#8, 0x0E#8] := by
  cases i <;> simp [partsOf, bulkParts, Instr.opcode]

theorem memory_mem_partsOf (i : Instr) : .memory ∈ partsOf i ↔ i.opcode = 0x0E := by
  cases i <;> simp [partsOf, bulkParts, Instr.opcode]

theorem sticky_mem_partsOf (i : Instr) : .sticky ∈ partsOf i ↔ i.opcode = 0x11 := by
  cases i <;> simp [partsOf, bulkParts, Instr.opcode]

theorem bus_mem_partsOf (i : Instr) : .bus ∈ partsOf i ↔ i.opcode ∉ [0x00#8, 0x01#8, 0x10#8, 0x11#8] := by
  cases i <;> simp [partsOf, bulkParts, Instr.opcode]

theorem fixed_not_mem_partsOf (i : Instr) : .fixed ∉ partsOf i := by
  cases i <;> simp [partsOf, bulkParts]

/-- The opcode of a decoded word, as a number (R90, R94). -/
theorem toNat_opcode_of_decode {w : CommandWord} {i : Instr} (h : decode w = .ok i) :
    bits w 63 56 = i.opcode.toNat := by
  rw [opcode_of_decode h, toNat_opcodeOf]

/-! ## The obligations -/

/-- A configured adapter has no CFG_PINS to run: the command is a no-op (R136). -/
theorem pins_not_mem_stepsOf {s : State} (h : s.configured = true) (i : Instr) :
    ∀ op ∈ stepsOf s i, .pins ∉ op.parts := by
  by_cases hp : .pins ∈ partsOf i
  · cases i with
    | cfgPins => simp [stepsOf, guardHolds, h, isBulk, Instr.opcode, MicroOp.parts]
    | _ => simp [partsOf, bulkParts] at hp
  · exact (within_stepsOf s i).not_mem hp

/-- Settles O56: no landing, no step of a waiting bulk command and no step of a newly accepted one writes the pins of a
configured adapter, and none takes PORTS_INIT back. -/
theorem configurationHoldsUntilReset : Obligations.ConfigurationHoldsUntilReset := by
  intro s t h e configured
  have keepPorts : t = heldInReset t ∨ (s.portsInit = true → t.portsInit = true) :=
    have mono (ops : List MicroOp) : ∀ op ∈ ops, ∀ u : State, (s.portsInit = true → u.portsInit = true) →
        s.portsInit = true → (perform op u).portsInit = true := fun op _ _ hu hs => perform_portsInit op (hu hs)
    (standing_portsInit s).step id e (fun _ => mono _) (fun _ _ _ _ => mono _)
  have keepPins : t = heldInReset t ∨ Agree .pins s t := by
    have keep {ops : List MicroOp} (hops : ∀ op ∈ ops, .pins ∉ op.parts) :
        ∀ op ∈ ops, ∀ u, Agree .pins s u → Agree .pins s (perform op u) :=
      fun op ho u hu => hu.perform (hops op ho)
    refine (standing_agree (by simp [ownParts]) s).step (.refl _ s) e ?_ ?_
    · exact fun busy => keep ((h.within_todo busy).not_mem (by decide))
    · intro w rest _ _
      obtain ⟨i, -, steps, -⟩ | illegal := within_acceptedSteps w s
      · rw [steps]
        exact keep (pins_not_mem_stepsOf configured i)
      · rw [illegal]
        exact keep (by simp [MicroOp.parts])
  obtain held | pins := keepPins
  · exact .inl held
  · obtain ⟨c, rest⟩ := pins.pins
    exact keepPorts.imp_right fun ports => ⟨c.trans configured, by tauto⟩

/-- Settles O57: of all the steps that may run, only those of CLEAR_FLAGS clear a sticky flag. -/
theorem stickyFlagsHoldUntilCleared : Obligations.StickyFlagsHoldUntilCleared := by
  intro s t h e
  have keep {ops : List MicroOp} (hops : ∀ op ∈ ops, .sticky ∉ op.parts) :
      ∀ op ∈ ops, ∀ u, StickyFrom s u → StickyFrom s (perform op u) := fun op ho u hu => hu.perform (hops op ho)
  by_cases clear : ∃ w rest, s.busy = false ∧ s.inputs = .command w :: rest ∧ bits w 63 56 = 0x11
  · exact .inl clear
  · refine .inr (((standing_stickyFrom s).step ⟨id, id⟩ e ?_ ?_).imp_right fun sticky => ⟨sticky.ovr, sticky.ill⟩)
    · exact fun busy => keep ((h.within_todo busy).not_mem (by decide))
    · intro w rest busy he
      obtain ⟨i, hi, -, within⟩ | illegal := within_acceptedSteps w s
      · refine keep (within.not_mem fun hm => clear ⟨w, rest, busy, he, ?_⟩)
        rw [toNat_opcode_of_decode hi, (sticky_mem_partsOf i).mp hm]
        rfl
      · rw [illegal]
        exact List.forall_mem_cons.mpr ⟨fun u hu => ⟨hu.ovr, fun _ => rfl⟩, keep (by simp [MicroOp.parts])⟩

/-- A register of a part of the adapter's own: unchanged while a command runs, and changed only where the word of one of
its commands `ops` is accepted. -/
theorem own_register_changes {α : Type} {f : State → α} {part : Part} (hp : part ∈ ownParts) {ops : List (BitVec 8)}
    (owner : ∀ i, part ∈ partsOf i ↔ i.opcode ∈ ops) {s t : State} (value : Agree part s t → f t = f s)
    (h : MachineInv s) (e : step s = .next t) (held : t ≠ heldInReset t) :
    (s.busy = true → f t = f s) ∧
      (f t ≠ f s → ∃ w rest, s.inputs = .command w :: rest ∧ bits w 63 56 ∈ ops.map BitVec.toNat) := by
  obtain reset | same | ⟨w, rest, i, idle, he, hi, hm⟩ := step_own_part hp h e
  · exact absurd reset held
  · exact ⟨fun _ => value same, fun ne => absurd (value same) ne⟩
  · refine ⟨fun busy => absurd (idle.symm.trans busy) Bool.false_ne_true, fun _ => ⟨w, rest, he, ?_⟩⟩
    rw [toNat_opcode_of_decode hi]
    exact List.mem_map_of_mem ((owner i).mp hm)

/-- Settles O58: each of the four is a part of the adapter's own, and the commands that may write it are those named. -/
theorem deviceStateChangesOnlyByItsCommands : Obligations.DeviceStateChangesOnlyByItsCommands := by
  intro s t h e
  by_cases held : t = heldInReset t
  · exact .inl held
  · obtain ⟨modeRuns, mode⟩ := own_register_changes (by decide) mode_mem_partsOf Agree.mode h e held
    obtain ⟨mirrorRuns, mirror⟩ := own_register_changes (by decide) mirror_mem_partsOf Agree.mirror h e held
    obtain ⟨colourRuns, colour⟩ := own_register_changes (by decide) colour_mem_partsOf Agree.colour h e held
    obtain ⟨basesRuns, bases⟩ := own_register_changes (by decide) bases_mem_partsOf Agree.bases h e held
    exact .inr ⟨fun busy => ⟨modeRuns busy, mirrorRuns busy, colourRuns busy, basesRuns busy⟩, mode, mirror, colour,
      bases⟩

/-- Settles O59: a command writes only its own parts; RESULT and DDIR, which a command may write and put back, apart. -/
theorem onlyTheNamedCommandsWrite : Obligations.OnlyTheNamedCommandsWrite := by
  intro i s t hq e
  have keep {part : Part} (h : part ∉ partsOf i) : Agree part s t := agree_exec_quiet hq e h
  refine ⟨?fixed, ?pins, ?ports, ?mode, ?mirror, ?colour, ?bases, ?status, ?burst, ?memory, ?sticky, ?bus⟩
  case fixed =>
    obtain ⟨params, cw, arst, rest⟩ := (keep (fixed_not_mem_partsOf i)).fixed
    exact ⟨params, cw, arst.trans hq.arst, rest⟩
  case pins => exact fun h => (keep (mt (pins_mem_partsOf i).mp h)).pins
  case ports =>
    intro h
    obtain ⟨ports, ctrlDir, intDir⟩ := (keep (mt (ports_mem_partsOf i).mp h)).ports
    exact ⟨ports, ctrlDir, intDir, exec_quiet_ddir hq e (by rintro rfl; exact h rfl)⟩
  case mode => exact fun h => (keep (mt (mode_mem_partsOf i).mp h)).mode
  case mirror => exact fun h => (keep (mt (mirror_mem_partsOf i).mp h)).mirror
  case colour => exact fun h => (keep (mt (colour_mem_partsOf i).mp h)).colour
  case bases => exact fun h => (keep fun hm => h (List.mem_singleton.mp ((bases_mem_partsOf i).mp hm))).bases
  case status =>
    intro h
    have noBurst : .burst ∉ partsOf i := fun hb => h (by
      have := (burst_mem_partsOf i).mp hb
      simp only [List.mem_cons] at this ⊢
      tauto)
    refine ⟨exec_quiet_result hq e noBurst ?_, (keep (mt (status_mem_partsOf i).mp h)).status⟩
    cases i with
    | bulkWrite | bulkRead | readStatus => simp [Instr.opcode] at h
    | _ => rfl
  case burst => exact fun h => (keep (mt (burst_mem_partsOf i).mp h)).burst
  case memory => exact fun h => (keep (mt (memory_mem_partsOf i).mp h)).memory
  case sticky => exact fun h => (keep (mt (sticky_mem_partsOf i).mp h)).sticky
  case bus => exact fun h => (keep fun hm => (bus_mem_partsOf i).mp hm h).bus

end Sys2Proof.Machine

/-! Bulk commands in their two forms, reset and dropped words in the middle of a command (R100, R193, R301). -/

namespace Sys2Proof.Machine

open Sys2Proof.Expected

/-! ## The steps of a bulk command -/

/-- With the gate open a bulk command stands before its window wait after two steps that move nothing (R190, R193). -/
theorem bulkOps_paced {s : State} (hg : gate s = true) (l : BitVec 16) (byte : List MicroOp) :
    bulkOps s l byte ++ [.finish .count] = .setPace true :: .enterWait :: waitingOps s l byte := by
  simp [bulkOps, hg, windowWait, waitingOps]

/-- With the gate closed a bulk command goes straight to its burst (R190, R198). -/
theorem bulkOps_unpaced {s : State} (hg : gate s = false) (l : BitVec 16) (byte : List MicroOp) :
    bulkOps s l byte ++ [.finish .count] =
      .setPace false :: .setCount l :: (byteLoop false byte l.toNat ++
        (statusRead s.seqVariant ++ [.latchStatus, .setPartial l, .setPaced, .finish .count])) := by
  simp [bulkOps, hg, windowWait, burstOps, effectiveCount]

/-- The guard of a bulk command with legal lengths (R92, R106). -/
theorem guardHolds_bulk {s : State} (hr : Ready s) {l m : BitVec 16} (hl : 1 ≤ l.toNat) (hm : 1 ≤ m.toNat)
    (h : BitVec 16) : guardHolds s (.bulkWrite h l m) = true ∧ guardHolds s (.bulkRead h l m) = true := by
  simp [guardHolds, hr.configured, hr.portsInit, Instr.WellFormed, Instr.countLegal, hl, hm]

/-- A bulk command that finds the other level stands in its window wait (R193). -/
theorem execute_bulk_waits {s : State} (hq : Quiet s) (hg : gate s = true) (level : intLevel s ≠ s.params.intWaitLevel)
    (l : BitVec 16) (byte : List MicroOp) :
    execute (bulkOps s l byte ++ [.finish .count]) s = .next (waitingState l byte s) := by
  rw [bulkOps_paced hg, execute]
  refine congrArg Host.Outcome.next ?_
  calc
    _ = runOps (waitingOps s l byte) { s with busy := true, p := true, waitInt := true } :=
      runOps_append_quiet (a := [.setPace true, .enterWait]) _ (s := { s with busy := true }) hq.inputs hq.arst
        (by simp)
    _ = waitingState l byte s :=
      (runOps_windowWait_quiet _ (s := { s with busy := true, p := true, waitInt := true }) hq.inputs hq.arst).trans
        (if_neg level)

/-- Settles O38: both bulk commands are the same steps but for the bytes, and the first sample shows the other level. -/
theorem pacedBurstWaitsForTheLevel : Obligations.PacedBurstWaitsForTheLevel := by
  intro s h l m hr hg hl hm level
  obtain ⟨write, read⟩ := guardHolds_bulk hr hl hm h
  have sample : (afterIntSample s).waitInt = true := bne_iff_ne.mpr level
  refine ⟨?_, ?_, sample, sample⟩
  · rw [exec_eq_execute, stepsOf, if_pos write]
    exact execute_bulk_waits hr.quiet hg level l _
  · rw [exec_eq_execute, stepsOf, if_pos read]
    exact execute_bulk_waits hr.quiet hg level l _

/-! ## The first bytes of a read burst -/

/-- The byte loop is that of its first bytes, and the rest. -/
theorem byteLoop_split (paced : Bool) (byte : List MicroOp) {j n : Nat} (h : j ≤ n) :
    ∃ rest, byteLoop paced byte n = byteLoop paced byte j ++ rest := by
  obtain ⟨k, rfl⟩ := Nat.exists_eq_add_of_le h
  exact ⟨_, by rw [byteLoop_eq, List.range_add, List.flatMap_append, byteLoop_eq]⟩

/-- The steps of an unpaced BULK_READ up to its byte `j` (R195). -/
def bulkReadSteps (h l m : BitVec 16) (j : Nat) : List MicroOp :=
  .setPace false :: .setCount l :: byteLoop false (readByte h m) j

/-- Six steps a byte, but for the first, which has no delay before it (R198). -/
theorem length_bulkReadSteps (h l m : BitVec 16) {j : Nat} (hj : 1 ≤ j) :
    (bulkReadSteps h l m j).length = 6 * j + 1 := by
  induction j, hj using Nat.le_induction with
  | base => rfl
  | succ j hj ih =>
    have later : (!false && decide (0 < j)) = true := by simpa using Nat.lt_of_lt_of_le Nat.one_pos hj
    have last : (byteSteps false (readByte h m) j).length = 6 := by
      rw [byteSteps, if_pos later]
      rfl
    have step : bulkReadSteps h l m (j + 1) = bulkReadSteps h l m j ++ byteSteps false (readByte h m) j := by
      rw [bulkReadSteps, byteLoop_succ]
      rfl
    rw [step, List.length_append, ih, last]
    omega

theorem windowWait_not_mem_bulkReadSteps (h l m : BitVec 16) (j : Nat) :
    MicroOp.windowWait ∉ bulkReadSteps h l m j := by
  simpa [bulkReadSteps] using windowWait_not_mem_byteLoop false (windowWait_not_mem_readByte h m) j

/-- An unpaced BULK_READ is its steps up to byte `j`, and at least one more. -/
theorem bulkOps_eq_bulkReadSteps_append {s : State} (hg : gate s = false) (h m : BitVec 16) {l : BitVec 16} {j : Nat}
    (hl : j ≤ l.toNat) :
    ∃ op rest, bulkOps s l (readByte h m) ++ [.finish .count] = bulkReadSteps h l m j ++ op :: rest := by
  obtain ⟨bytes, hb⟩ := byteLoop_split false (readByte h m) hl
  obtain ⟨op, rest, he⟩ := List.exists_cons_of_ne_nil (l := bytes ++ (statusRead s.seqVariant ++
    [.latchStatus, .setPartial l, .setPaced, .finish .count])) (by simp)
  exact ⟨op, rest, by rw [bulkOps_unpaced hg, hb, ← he, bulkReadSteps]; simp⟩

/-- A change of the state that a byte of a read burst carries along is carried along by all of them. -/
theorem afterReadBytes_carries {g : State → State} {paced : Bool} {h m : BitVec 16}
    (hg : ∀ k u, afterReadByte paced h m k (g u) = g (afterReadByte paced h m k u)) (n : Nat) (s : State) :
    afterReadBytes paced h m n (g s) = g (afterReadBytes paced h m n s) := by
  induction n with
  | zero => rfl
  | succ n ih => rw [afterReadBytes, ih, hg, afterReadBytes]

/-- What an unpaced BULK_READ has done after its byte `j` (R195). -/
theorem performAll_bulkReadSteps {s : State} (hr : Ready s) (h l m : BitVec 16) {j : Nat} (hj : j ≤ 65536) :
    performAll (bulkReadSteps h l m j) { s with busy := true } =
      { afterReadBytes false h m j s with p := false, n := l, busy := true } := by
  have pins : PinsWf { s with p := false, n := l, busy := true } := hr.pins.of_bus rfl
  have idle : BusIdle { s with p := false, n := l, busy := true } := hr.idle.of_bus rfl
  calc
    _ = afterReadBytes false h m j { s with p := false, n := l, busy := true } :=
      performAll_readLoop (s := { s with p := false, n := l, busy := true }) hr.configured pins idle false h m j hj
    _ = { afterReadBytes false h m j s with p := false, n := l, busy := true } :=
      afterReadBytes_carries (g := fun u => { u with p := false, n := l, busy := true }) (fun _ _ => rfl) j s

/-- An unpaced BULK_READ with nothing placed before its byte `j` is done: the steps left run from the state those bytes
leave (R195). -/
theorem exec_bulkRead_placed {s : State} (hr : Ready s) (hg : gate s = false) (h : BitVec 16) {l m : BitVec 16}
    {j : Nat} (hm : 1 ≤ m.toNat) (hj : 1 ≤ j) (hl : j ≤ l.toNat) (next : List Input) : ∃ op rest,
      exec (.bulkRead h l m) { s with inputs := List.replicate (6 * j + 1) .advance ++ next } =
        .next (runOps (op :: rest)
          { afterReadBytes false h m j s with p := false, n := l, busy := true, inputs := next }) := by
  obtain ⟨op, rest, steps⟩ := bulkOps_eq_bulkReadSteps_append hg h m hl
  have run := runOps_append_placed (s := { s with busy := true }) (op :: rest) next hr.quiet.arst
    (windowWait_not_mem_bulkReadSteps h l m j)
  rw [length_bulkReadSteps h l m hj, performAll_bulkReadSteps hr h l m (by omega)] at run
  refine ⟨op, rest, ?_⟩
  rw [exec_eq_execute, stepsOf_withInputs, stepsOf, if_pos (guardHolds_bulk hr (hj.trans hl) hm h).2]
  change execute (bulkOps s l (readByte h m) ++ [.finish .count]) _ = _
  rw [steps]
  exact congrArg Host.Outcome.next run

/-! ## Reset -/

/-- Where ARST is the next to land, the steps left are not performed (R301). -/
theorem runOps_reset (op : MicroOp) (rest : List MicroOp) {l : List Input} {s : State}
    (h : s.inputs = .arst true :: l) : runOps (op :: rest) s = assertReset { s with inputs := l } := by
  rw [runOps, h]
  simp only [landInputs, assertReset_fields, ↓reduceIte]

/-- A command in its window wait goes on (R7, R71). -/
theorem step_of_busy {s : State} (busy : s.busy = true) (arst : s.arst = false) :
    step s = .next (runOps s.todo s) := by
  have resume : turn s = .resume := by simp [turn, busy, arst]
  rw [step, resume]

/-- A step that ends with ARST asserted, and began without it, ends in the reset state (R300, R301). -/
theorem step_into_reset {s t : State} (ha : s.arst = false) (e : step s = .next t) (ht : t.arst = true) :
    t = heldInReset t := by
  have keep (ops : List MicroOp) : ∀ op ∈ ops, ∀ u : State, u.arst = false → (perform op u).arst = false :=
    fun op _ u hu => (perform_arst op u).trans hu
  have standing : Standing fun u => u.arst = false :=
    { land := fun i u hi hu => landInput_arst_false hu hi, inputs := fun _ _ hu => hu, todo := fun _ _ hu => hu
      accept := fun _ _ hu => hu }
  obtain held | released := standing.step ha e (fun _ => keep _) (fun _ _ _ _ => keep _)
  · exact held
  · exact absurd (released.symm.trans ht) Bool.false_ne_true

/-- Settles O52: wherever ARST lands, it is the next to land before some step, and no step is performed after it. -/
theorem resetAbortsTheRunningCommand : Obligations.ResetAbortsTheRunningCommand := by
  refine ⟨?waiting, ?anywhere, ?steps, ?reading, fun s t => step_into_reset⟩
  case waiting =>
    intro s op rest l busy arst todo inputs
    have run : runOps s.todo s = assertReset { s with inputs := l } :=
      (congrArg (runOps · s) todo).trans (runOps_reset op rest inputs)
    exact ⟨_, (step_of_busy busy arst).trans (congrArg _ run), rfl, rfl, rfl, rfl⟩
  case anywhere =>
    intro s pre op rest l arst noWait
    refine ⟨_, rfl, ?_⟩
    rw [runOps_append_placed (op :: rest) (.arst true :: l) arst noWait, runOps_reset op rest rfl]
    exact ⟨rfl, rfl, rfl, rfl⟩
  case steps =>
    intro i s
    refine ⟨stepsOf s i, fun l => ?_⟩
    rw [exec_eq_execute, stepsOf_withInputs]
    rfl
  case reading =>
    intro s h l m j rest hr hg hm hj hl
    obtain ⟨op, left, e⟩ := exec_bulkRead_placed hr hg h hm hj hl (.arst true :: rest)
    refine ⟨_, e, ?_⟩
    rw [runOps_reset op left rfl]
    exact ⟨rfl, rfl, rfl, rfl⟩

/-! ## Dropped words -/

/-- The step of a waiting command in which a word is dropped is the step without the word, with OVR set (R100). -/
theorem step_dropped {s : State} (h : MachineInv s) (busy : s.busy = true) (arst : s.arst = false) {w : CommandWord}
    {rest : List Input} (he : s.inputs = .command w :: rest) :
    step s = .next (runOps s.todo { s with inputs := rest, ovr := true }) ∧
      step { s with inputs := rest } = .next (runOps s.todo { s with inputs := rest }) := by
  obtain ⟨l, byte, todo, -⟩ := h.todo_of_busy busy
  have dropped : runOps s.todo s = runOps s.todo { dropCommand s with inputs := rest } := by
    rw [todo]
    exact runOps_dropped he
  have sets : dropCommand s = { s with ovr := true } := by simp [dropCommand, arst]
  refine ⟨?_, step_of_busy busy arst⟩
  rw [step_of_busy busy arst, dropped, sets]

/-- Settles O11: the two runs differ in OVR and in what the host read of it, and no step of a waiting command clears
OVR. -/
theorem commandWhileBusyIsDropped : Obligations.CommandWhileBusyIsDropped := by
  refine ⟨fun s w _ arst => by simp [landInput, dropCommand, arst], fun s w rest h busy arst he => ?_⟩
  obtain ⟨stepWith, stepWithout⟩ := step_dropped h busy arst he
  have same : SameButOvr { s with inputs := rest, ovr := true } { s with inputs := rest } := ⟨_, _, rfl⟩
  have sticky := (standing_stickyFrom { s with inputs := rest, ovr := true }).runOps (ops := s.todo) ⟨id, id⟩ arst
    fun op ho u hu => hu.perform ((h.within_todo busy).not_mem (by decide) op ho)
  refine ⟨_, _, stepWith, stepWithout, ?_, fun released => ?_⟩
  · obtain ⟨ovr, reads, e⟩ := same.runOps s.todo
    rw [e]
  · obtain held | kept := sticky
    · exact absurd (released.symm.trans (congrArg State.arst held)) Bool.false_ne_true
    · exact kept.ovr rfl

end Sys2Proof.Machine

/-! The reference VDP frame by frame (R77-R84), and the two framing pairs it takes. -/

namespace Sys2Proof.Machine

open Sys2Proof.Expected

/-! ## Frames of the reference VDP -/

section

variable {v : RefVdp}

/-- From FF = 0 a framing byte is held (R77). -/
theorem RefVdp.writeFrame_first (ff : v.ff = false) (b : Byte) :
    v.writeFrame true b = { v with latch := b, ff := true } := by
  simp [RefVdp.writeFrame, ff]

/-- A second framing byte with bit 7 set writes a register with the byte held (R78). -/
theorem RefVdp.writeFrame_register (ff : v.ff = true) {b : Byte} (tag : b.getLsbD 7 = true) {i : Fin 8}
    (index : b.extractLsb' 0 3 = BitVec.ofFin i) :
    v.writeFrame true b = { v with ff := false, vreg := v.vreg.set i.val v.latch } := by
  simp [RefVdp.writeFrame, ff, tag, index]

/-- A second framing byte with bit 7 clear sets the cursor and the direction (R79). -/
theorem RefVdp.writeFrame_address (ff : v.ff = true) {b : Byte} (tag : b.getLsbD 7 = false) :
    v.writeFrame true b =
      { v with ff := false, cursor := some (b.extractLsb' 0 6 ++ v.latch)
               dirn := some (if b.getLsbD 6 then .forWrite else .forRead) } := by
  rw [RefVdp.writeFrame, if_pos rfl, if_pos ff, tag]
  rfl

/-- A data byte is stored at a cursor set up for writing, which moves on (R80). -/
theorem RefVdp.writeFrame_data {c : VramAddr} (cursor : v.cursor = some c) (dirn : v.dirn = some .forWrite) (b : Byte) :
    v.writeFrame false b = { v with vram := v.vram.write c.toNat b, cursor := some (c + 1) } := by
  simp [RefVdp.writeFrame, cursor, dirn]

/-- A data byte with the cursor unknown or not set up for writing (R84). -/
theorem RefVdp.writeFrame_undefined (h : v.cursor = none ∨ v.dirn ≠ some .forWrite) (b : Byte) :
    v.writeFrame false b = v.undefinedAccess := by
  rw [RefVdp.writeFrame, if_neg Bool.false_ne_true]
  split
  next cursor dirn => simp [cursor, dirn] at h
  next => rfl

/-- A data read at a cursor set up for reading moves it on and nothing else (R81). -/
theorem RefVdp.readFrame_data {c : VramAddr} (cursor : v.cursor = some c) (dirn : v.dirn = some .forRead) :
    v.readFrame false = { v with cursor := some (c + 1) } := by
  simp [RefVdp.readFrame, cursor, dirn]

/-- The byte of such a read is the one at the cursor (R81). -/
theorem RefVdp.answer_data {c : VramAddr} (cursor : v.cursor = some c) (dirn : v.dirn = some .forRead) :
    v.answer false = v.vram.read? c.toNat := by
  simp [RefVdp.answer, cursor, dirn]

/-- A data read with the cursor unknown or not set up for reading (R84). -/
theorem RefVdp.readFrame_undefined (h : v.cursor = none ∨ v.dirn ≠ some .forRead) :
    v.readFrame false = v.undefinedAccess := by
  rw [RefVdp.readFrame, if_neg Bool.false_ne_true]
  split
  next cursor dirn => simp [cursor, dirn] at h
  next => rfl

/-- Such a read has no defined byte (R84). -/
theorem RefVdp.answer_undefined (h : v.cursor = none ∨ v.dirn ≠ some .forRead) : v.answer false = none := by
  rw [RefVdp.answer, if_neg Bool.false_ne_true]
  split
  next cursor dirn => simp [cursor, dirn] at h
  next => rfl

end

/-- No write frame touches the interrupt flag (R83). -/
theorem RefVdp.intFlag_writeFrame (v : RefVdp) (framing : Bool) (b : Byte) :
    (v.writeFrame framing b).intFlag = v.intFlag := by
  unfold RefVdp.writeFrame
  split
  · split
    · split <;> rfl
    · rfl
  · split <;> rfl

/-- No data read touches the interrupt flag (R83). -/
theorem RefVdp.intFlag_readFrame_data (v : RefVdp) : (v.readFrame false).intFlag = v.intFlag := by
  rw [RefVdp.readFrame, if_neg Bool.false_ne_true]
  split <;> rfl

/-- The INT pin is low exactly with the flag and the irq-enable bit set (R83). -/
theorem RefVdp.intLevel_eq_false (v : RefVdp) (c : Params) :
    v.intLevel c = false ↔ v.intFlag = true ∧ (v.vreg[1]).getLsbD c.r1IeBit.val = true := by
  rw [RefVdp.intLevel, Bool.not_eq_false', Bool.and_eq_true]

/-! ## Framing pairs -/

/-- The tag byte of register `i` names a register write, and register `i` (R78, R96). -/
theorem tag_register (i : Fin 8) :
    (0x80#8 ||| BitVec.ofNat 8 i.val).getLsbD 7 = true ∧
      (0x80#8 ||| BitVec.ofNat 8 i.val).extractLsb' 0 3 = BitVec.ofFin i := by
  revert i; decide

/-- The second byte of an address pair names an address and its direction, and the two bytes carry the address (R79,
R97). -/
theorem addressPair_bits (a : VramAddr) (rd : Direction) :
    (addressPair a rd).2.getLsbD 7 = false ∧ (addressPair a rd).2.getLsbD 6 = decide (rd = .forWrite) ∧
      (addressPair a rd).2.extractLsb' 0 6 ++ (addressPair a rd).1 = a := by
  have top (d : BitVec 2) (x : BitVec 6) :
      (d ++ x).getLsbD 7 = d.getLsbD 1 ∧ (d ++ x).getLsbD 6 = d.getLsbD 0 ∧ (d ++ x).extractLsb' 0 6 = x := by
    refine ⟨by rw [BitVec.getLsbD_append]; rfl, by rw [BitVec.getLsbD_append]; rfl,
      BitVec.extractLsb'_append_eq_right⟩
  obtain ⟨seven, six, low⟩ := top (if rd = .forRead then 0b00#2 else 0b01#2) (a.extractLsb' 8 6)
  refine ⟨seven.trans ?_, six.trans ?_, ?_⟩
  · cases rd <;> rfl
  · cases rd <;> rfl
  · rw [addressPair, low]
    apply BitVec.eq_of_getLsbD_eq
    intro k hk
    rw [BitVec.getLsbD_append]
    split
    next h => simp [h]
    next h =>
      have high : 8 + (k - 8) = k := by omega
      have small : k - 8 < 6 := by omega
      simp [high, small]

/-- Settles O46: the first byte is held, and bit 7 of the second says which of the two the pair is. -/
theorem referenceVdpTakesFramingPairs : Obligations.ReferenceVdpTakesFramingPairs := by
  intro v ff
  refine ⟨fun i b => ?register, fun a rd => ?address⟩
  case register =>
    obtain ⟨tag, index⟩ := tag_register i
    rw [RefVdp.writeFrame_first ff, RefVdp.writeFrame_register rfl tag index, ← ff]
  case address =>
    obtain ⟨tag, dir, address⟩ := addressPair_bits a rd
    rw [RefVdp.writeFrame_first ff, RefVdp.writeFrame_address rfl tag, dir, address, ← ff]
    cases rd <;> rfl

/-! ## Status reads and undefined accesses -/

/-- READ_STATUS on the idle bus is one status read (R231). -/
theorem exec_readStatus {s : State} (hr : Ready s) :
    exec .readStatus s = .next (done ((anyByte s).setWidth 16) (afterStatus s)) := by
  have guard : gReady s = true := by rw [gReady, hr.configured, hr.portsInit]; rfl
  have noWait : MicroOp.windowWait ∉ statusRead s.seqVariant ++ [.latchStatus] := by
    simpa using windowWait_not_mem_statusRead s.seqVariant
  have read : performAll (statusRead s.seqVariant ++ [.latchStatus]) { s with busy := true } =
      afterStatus { s with busy := true } :=
    performAll_statusRead (s := { s with busy := true }) (hr.pins.of_bus rfl) (hr.idle.of_bus rfl)
  have run := command_true_quiet hr.quiet .status noWait
  rw [read] at run
  change command (gReady s) _ .status s = _
  rw [guard, run]
  rfl

/-- After an access R84 leaves undefined no byte of VRAM is promised, nor the cursor (log 6). -/
theorem RefVdp.undefinedAccess_promises_nothing (v : RefVdp) :
    v.undefinedAccess.cursor = none ∧ ∀ x, v.undefinedAccess.vram.read? x = none := ⟨rfl, fun _ => rfl⟩

/-- Settles O60, one clause after another from the frames of the reference VDP. -/
theorem referenceVdpInterruptAndUndefinedAccess : Obligations.ReferenceVdpInterruptAndUndefinedAccess := by
  intro v
  refine ⟨⟨rfl, rfl⟩, fun s hr attached => ?status, v.intLevel_eq_false, fun s attached => ?pin, v.intFlag_writeFrame,
    v.intFlag_readFrame_data, fun b h => ?write, fun h => ?read⟩
  case status =>
    refine ⟨_, exec_readStatus hr, ?_⟩
    change s.vdp.map _ = _
    rw [attached]
    rfl
  case pin => simp [intLevel, landInput, attached]
  case write =>
    rw [RefVdp.writeFrame_undefined h]
    exact v.undefinedAccess_promises_nothing
  case read =>
    rw [RefVdp.readFrame_undefined h]
    exact ⟨RefVdp.answer_undefined h, v.undefinedAccess_promises_nothing⟩

end Sys2Proof.Machine

/-! Bursts that run: what a bulk command does once its bytes may move, for writes and reads alike (R192-R200). -/

namespace Sys2Proof.Machine

open Sys2Proof.Expected

/-! ## The bytes of a burst -/

/-- From the idle bus the steps `byte`, in a byte loop of `n`, do `after n` (R194, R195), which leaves alone what the rest
of the command reads. -/
structure BurstBytes (paced : Bool) (byte : List MicroOp) (after : Nat → State → State) : Prop where
  noWait : MicroOp.windowWait ∉ byte
  runs : ∀ {s n}, s.configured = true → PinsWf s → BusIdle s → n ≤ 65536 →
    performAll (byteLoop paced byte n) s = after n s
  bus : ∀ n s, (after n s).bus = s.bus
  pace : ∀ n s, (after n s).p = s.p
  length : ∀ n s, (after n s).n = s.n
  busy : ∀ n s, after n { s with busy := true } = { after n s with busy := true }

/-- A change of the state that a byte of a write burst carries along is carried along by all of them. -/
theorem afterWriteBytes_carries {g : State → State} {paced : Bool} {h m : BitVec 16}
    (hg : ∀ k u, afterWriteByte paced h m k (g u) = g (afterWriteByte paced h m k u)) (n : Nat) (s : State) :
    afterWriteBytes paced h m n (g s) = g (afterWriteBytes paced h m n s) := by
  induction n with
  | zero => rfl
  | succ n ih => rw [afterWriteBytes, ih, hg, afterWriteBytes]

/-- The bytes of a BULK_WRITE (R194). -/
theorem burstBytes_write (paced : Bool) (h m : BitVec 16) :
    BurstBytes paced (writeByte h m) (afterWriteBytes paced h m) where
  noWait := windowWait_not_mem_writeByte h m
  runs hc hp hb hn := performAll_writeLoop hc hp hb paced h m _ hn
  bus := afterWriteBytes_keeps State.bus paced h m fun _ _ => rfl
  pace := afterWriteBytes_keeps State.p paced h m fun _ _ => rfl
  length := afterWriteBytes_keeps State.n paced h m fun _ _ => rfl
  busy := afterWriteBytes_carries fun _ _ => rfl

/-- The bytes of a BULK_READ (R195). -/
theorem burstBytes_read (paced : Bool) (h m : BitVec 16) :
    BurstBytes paced (readByte h m) (afterReadBytes paced h m) where
  noWait := windowWait_not_mem_readByte h m
  runs hc hp hb hn := performAll_readLoop hc hp hb paced h m _ hn
  bus := afterReadBytes_keeps State.bus paced h m fun _ _ => rfl
  pace := afterReadBytes_keeps State.p paced h m fun _ _ => rfl
  length := afterReadBytes_keeps State.n paced h m fun _ _ => rfl
  busy := afterReadBytes_carries fun _ _ => rfl

/-- What a burst does once its bytes may move, `after` being its bytes: `afterWriteBurst` and `afterReadBurst` are the two
cases. -/
def afterBurst (after : Nat → State → State) (paced : Bool) (l : BitVec 16) (s : State) : State :=
  burstDone paced (count s paced l) l (after (count s paced l).toNat { s with p := paced, n := count s paced l })

/-- The effective count as the machine computes it (R192). -/
theorem effectiveCount_eq_count (s : State) (paced : Bool) (l : BitVec 16) :
    effectiveCount s.params paced l = count s paced l := by
  cases paced with
  | false => exact ((BitVec.ofNat_toNat 16 l).trans (BitVec.setWidth_eq l)).symm
  | true =>
    rw [effectiveCount, if_pos rfl, count, if_pos rfl]
    split
    next h => rw [Nat.min_eq_left (BitVec.le_def.mp h), BitVec.ofNat_toNat, BitVec.setWidth_eq]
    next h =>
      have lt : s.params.budget.toNat < l.toNat := BitVec.lt_def.mp (BitVec.not_le.mp h)
      rw [Nat.min_eq_right lt.le, BitVec.ofNat_toNat, BitVec.setWidth_eq]

/-- The steps of a burst: N, its bytes, the status read with its byte in VDPSTAT, and what is left (R194, R195, R199). -/
theorem burstOps_finish_eq (variant : SeqVariant) (paced : Bool) (n l : BitVec 16) (byte : List MicroOp) :
    burstOps variant paced n l byte ++ [.finish .count] =
      MicroOp.setCount n :: (byteLoop paced byte n.toNat ++ ((statusRead variant ++ [MicroOp.latchStatus]) ++
        [MicroOp.setPartial l, MicroOp.setPaced, MicroOp.finish .count])) := by
  simp [burstOps]

section

variable {paced : Bool} {byte : List MicroOp} {after : Nat → State → State} (bytes : BurstBytes paced byte after)

include bytes

/-- The steps of a burst have no window wait but the one before them. -/
theorem BurstBytes.windowWait_not_mem_burst (variant : SeqVariant) (n l : BitVec 16) :
    MicroOp.windowWait ∉ burstOps variant paced n l byte ++ [.finish .count] := by
  simp [burstOps, windowWait_not_mem_byteLoop paced bytes.noWait, windowWait_not_mem_statusRead]

/-- A burst from the idle bus that nothing interrupts: its bytes, the status read, PARTIAL and PACED, `finish(N)` (R194,
R195, R199). -/
theorem BurstBytes.runOps_burst {s : State} (hr : Ready s) (hp : s.p = paced) (n l : BitVec 16) :
    runOps (burstOps s.seqVariant paced n l byte ++ [.finish .count]) s =
      burstDone paced n l (after n.toNat { s with n := n }) := by
  have pins : PinsWf { s with n := n } := hr.pins.of_bus rfl
  have idle : BusIdle { s with n := n } := hr.idle.of_bus rfl
  have loop := bytes.runs (s := { s with n := n }) hr.configured pins idle n.isLt.le
  have bus := bytes.bus n.toNat { s with n := n }
  have pace := bytes.pace n.toNat { s with n := n }
  have length := bytes.length n.toNat { s with n := n }
  generalize after n.toNat { s with n := n } = u at loop bus pace length ⊢
  have variant : u.seqVariant = s.seqVariant := congrArg BusRegs.seqVariant bus
  have status := performAll_statusRead (pins.of_bus bus) (idle.of_bus bus)
  rw [variant] at status
  have start : perform (.setCount n) s = { s with n := n } := rfl
  have all : performAll (burstOps s.seqVariant paced n l byte ++ [.finish .count]) s =
      performAll [.setPartial l, .setPaced, .finish .count] (afterStatus u) := by
    rw [burstOps_finish_eq, performAll_cons, performAll_append, performAll_append, start, loop, status]
  rw [runOps_quiet hr.quiet.inputs hr.quiet.arst (bytes.windowWait_not_mem_burst _ _ _), all]
  have paced_eq : u.p = paced := pace.trans hp
  subst paced_eq length
  rfl

/-- The same from the state in which BUSY has been set for it (R101). -/
theorem BurstBytes.runOps_burst_busy {s : State} (hr : Ready s) (l : BitVec 16) :
    runOps (burstOps s.seqVariant paced (effectiveCount s.params paced l) l byte ++ [.finish .count])
      { s with busy := true, p := paced } = afterBurst after paced l s := by
  have ready : Ready { s with busy := true, p := paced } :=
    ⟨⟨hr.quiet.inputs, hr.quiet.arst⟩, hr.configured, hr.portsInit, hr.pins.of_bus rfl, hr.idle.of_bus rfl⟩
  have run := bytes.runOps_burst ready rfl (count s paced l) l
  have busy := bytes.busy (count s paced l).toNat { s with p := paced, n := count s paced l }
  rw [effectiveCount_eq_count]
  calc
    _ = burstDone paced (count s paced l) l
        (after (count s paced l).toNat { s with busy := true, p := paced, n := count s paced l }) := run
    _ = burstDone paced (count s paced l) l
        { after (count s paced l).toNat { s with p := paced, n := count s paced l } with busy := true } :=
      congrArg (burstDone paced (count s paced l) l) busy

end

/-! ## The commands -/

/-- A window wait that finds the level takes its one sample and goes on (R193). -/
theorem runOps_windowWait_level (rest : List MicroOp) {s : State} (hq : Quiet s)
    (level : intLevel s = s.params.intWaitLevel) : runOps (.windowWait :: rest) s = runOps rest (pollInt s) := by
  rw [runOps_windowWait_quiet rest hq.inputs hq.arst, if_pos level]

/-- A sample of the INT pin leaves the adapter ready (R127). -/
theorem Ready.afterIntSample {s : State} (hr : Ready s) : Ready (afterIntSample s) :=
  ⟨⟨hr.quiet.inputs, hr.quiet.arst⟩, hr.configured, hr.portsInit, hr.pins.of_bus rfl, hr.idle.of_bus rfl⟩

/-- A bulk command in its window wait that finds the level goes on to its burst (R193). -/
theorem BurstBytes.runOps_waitingOps {byte : List MicroOp} {after : Nat → State → State}
    (bytes : BurstBytes true byte after) {s : State} (hr : Ready s)
    (level : intLevel s = s.params.intWaitLevel) (l : BitVec 16) (waitInt : Bool) :
    runOps (waitingOps s l byte) { s with busy := true, p := true, waitInt } =
      afterBurst after true l (afterIntSample s) := by
  calc
    _ = runOps (burstOps s.seqVariant true (effectiveCount s.params true l) l byte ++ [MicroOp.finish .count])
        { afterIntSample s with busy := true, p := true } :=
      runOps_windowWait_level _ (s := { s with busy := true, p := true, waitInt }) ⟨hr.quiet.inputs, hr.quiet.arst⟩ level
    _ = afterBurst after true l (afterIntSample s) := bytes.runOps_burst_busy hr.afterIntSample l

/-- Where the bytes of a burst start to move: after the sample that finds the level, if there is a wait (R193). -/
def burstStart (paced : Bool) (s : State) : State := if paced then afterIntSample s else s

/-- A sample of the INT pin changes neither HOSTMEM nor the VDP and its board, nor what the count depends on. -/
theorem burstStart_fields (paced : Bool) (s : State) :
    (burstStart paced s).hostmem = s.hostmem ∧ (burstStart paced s).vdp = s.vdp ∧
      (burstStart paced s).dshared = s.dshared ∧ ∀ l, count (burstStart paced s) paced l = count s paced l := by
  cases paced <;> exact ⟨rfl, rfl, rfl, fun _ => rfl⟩

/-- A bulk command that starts with the gate closed, or finds the level at its first sample, runs its burst (R190,
R193). -/
theorem BurstBytes.execute_bulk {paced : Bool} {byte : List MicroOp} {after : Nat → State → State}
    (bytes : BurstBytes paced byte after) {s : State} (hr : Ready s) (hg : gate s = paced)
    (level : paced = true → intLevel s = s.params.intWaitLevel) (l : BitVec 16) :
    execute (bulkOps s l byte ++ [.finish .count]) s = .next (afterBurst after paced l (burstStart paced s)) := by
  rw [execute]
  refine congrArg Host.Outcome.next ?_
  cases paced with
  | false =>
    rw [bulkOps, hg]
    calc
      _ = runOps (burstOps s.seqVariant false (effectiveCount s.params false l) l byte ++ [.finish .count])
          { s with busy := true, p := false } :=
        runOps_append_quiet (a := [.setPace false]) _ (s := { s with busy := true }) hr.quiet.inputs hr.quiet.arst
          (by simp)
      _ = afterBurst after false l s := bytes.runOps_burst_busy hr l
  | true =>
    rw [bulkOps_paced hg]
    calc
      _ = runOps (waitingOps s l byte) { s with busy := true, p := true, waitInt := true } :=
        runOps_append_quiet (a := [.setPace true, .enterWait]) _ (s := { s with busy := true }) hr.quiet.inputs
          hr.quiet.arst (by simp)
      _ = afterBurst after true l (afterIntSample s) := bytes.runOps_waitingOps hr (level rfl) l true

/-- A bulk command in its window wait that finds the level runs its burst (R193). -/
theorem BurstBytes.step_waiting {byte : List MicroOp} {after : Nat → State → State} (bytes : BurstBytes true byte after)
    {s : State} (hr : Ready s) (busy : s.busy = true) (pace : s.p = true) {l : BitVec 16}
    (todo : s.todo = waitingOps s l byte) (level : intLevel s = s.params.intWaitLevel) :
    step s = .next (afterBurst after true l (afterIntSample s)) := by
  have waiting : { s with busy := true, p := true } = s := by cases s; cases busy; cases pace; rfl
  have run := bytes.runOps_waitingOps hr level l s.waitInt
  rw [waiting] at run
  rw [step_of_busy busy hr.quiet.arst, todo, run]

/-- However a burst comes to run, it does its bytes and ends (R7, R190, R193). -/
theorem BurstBytes.of_burstRuns {paced : Bool} {byte : List MicroOp} {after : Nat → State → State}
    (bytes : BurstBytes paced byte after) {s : State} (hr : Ready s) {i : Instr} {l : BitVec 16}
    (steps : stepsOf s i = bulkOps s l byte ++ [.finish .count]) {o : Host.Outcome State Fault Refusal}
    (h : BurstRuns i l byte paced s o) : o = .next (afterBurst after paced l (burstStart paced s)) := by
  obtain ⟨hg, level, rfl⟩ | ⟨rfl, busy, pace, todo, level, rfl⟩ := h
  · rw [exec_eq_execute, steps]
    exact bytes.execute_bulk hr hg level l
  · exact bytes.step_waiting hr busy pace todo level

/-- A BULK_WRITE whose bytes move (R194). -/
theorem bulkWrite_of_burstRuns {s : State} (hr : Ready s) {h l m : BitVec 16} (hl : 1 ≤ l.toNat) (hm : 1 ≤ m.toNat)
    {paced : Bool} {o : Host.Outcome State Fault Refusal}
    (runs : BurstRuns (.bulkWrite h l m) l (writeByte h m) paced s o) :
    o = .next (afterWriteBurst paced h l m (burstStart paced s)) :=
  (burstBytes_write paced h m).of_burstRuns hr (if_pos (guardHolds_bulk hr hl hm h).1) runs

/-- A BULK_READ whose bytes move (R195). -/
theorem bulkRead_of_burstRuns {s : State} (hr : Ready s) {h l m : BitVec 16} (hl : 1 ≤ l.toNat) (hm : 1 ≤ m.toNat)
    {paced : Bool} {o : Host.Outcome State Fault Refusal}
    (runs : BurstRuns (.bulkRead h l m) l (readByte h m) paced s o) :
    o = .next (afterReadBurst paced h l m (burstStart paced s)) :=
  (burstBytes_read paced h m).of_burstRuns hr (if_pos (guardHolds_bulk hr hl hm h).2) runs

end Sys2Proof.Machine

/-! HOSTMEM and VRAM: what the host reads back, and what a burst stores or copies (R61, R74, R80, R81, R196, R197, R317). -/

namespace Sys2Proof.Machine

open Sys2Proof.Expected

/-! ## HOSTMEM -/

/-- HOSTMEM returns the byte last written, and a write changes no other byte (R61). -/
theorem Memory.hostRead_hostWrite (m : Memory) (a b : HostAddr) (v : Byte) :
    (m.hostWrite a v).hostRead b = if b = a then v else m.hostRead b := by
  split
  next h => rw [h, Memory.hostRead_hostWrite_same]
  next h => exact Memory.hostRead_hostWrite_other m v h

/-- A byte the host stores is what it reads back, old or new (R317). -/
theorem hostMemByte_hostMemWrite (a b : HostAddr) (v : Byte) (old : Bool) (s : State) :
    hostMemByte a old (hostMemWrite b v s) = if a = b then v else hostMemByte a old s := by
  unfold hostMemByte
  simp only [hostMemWrite, Memory.hostRead_hostWrite]
  split <;> rfl

/-- While a command runs, the old byte is the one without its writes (R317). -/
theorem hostMemByte_old {s : State} (busy : s.busy = true) (a : HostAddr) :
    hostMemByte a true s = s.hostmemBefore.hostRead a := by
  rw [hostMemByte, busy]
  rfl

/-- The new byte is the one HOSTMEM holds (R317). -/
theorem hostMemByte_new (a : HostAddr) (s : State) : hostMemByte a false s = s.hostmem.hostRead a := by
  rw [hostMemByte, Bool.and_false, if_neg Bool.false_ne_true]

/-- With BUSY = 0 a host read gives the byte HOSTMEM holds (R74). -/
theorem hostMemByte_idle {s : State} (idle : s.busy = false) (a : HostAddr) (old : Bool) :
    hostMemByte a old s = s.hostmem.hostRead a := by
  rw [hostMemByte, idle, Bool.false_and, if_neg Bool.false_ne_true]

/-- As long as the running command has written nothing, old and new are the same byte (R317). -/
theorem hostMemByte_unwritten {s : State} (h : s.hostmemBefore = s.hostmem) (a : HostAddr) (old : Bool) :
    hostMemByte a old s = s.hostmem.hostRead a := by
  rw [hostMemByte, h, ite_self]

/-- What the host reads of HOSTMEM before a step of a running command is all it reads, if nothing more is to land (R61). -/
theorem memReads_runOps_memRead (op : MicroOp) (rest : List MicroOp) {s : State} (ha : s.arst = false) {a : HostAddr}
    {old : Bool} (hi : s.inputs = [.memRead a old]) :
    (runOps (op :: rest) s).memReads = (a, hostMemByte a old s) :: s.memReads := by
  have landed : runOps (op :: rest) s = runOps (op :: rest) { hostMemRead a old s with inputs := [] } := by
    rw [runOps, runOps, hi]
    rfl
  rw [landed]
  exact runOps_quiet_keeps State.memReads _ _ rfl ha (fun _ _ => rfl) fun op _ u => perform_memReads op u

/-- Settles O45: reads and writes of HOSTMEM one by one; in a BULK_READ the read lands where byte `j` has been stored. -/
theorem hostMemoryReadsBackWrites : Obligations.HostMemoryReadsBackWrites := by
  refine ⟨Memory.hostRead_hostWrite, fun s a old => ?host, fun s h m => ⟨rfl, fun busy a => ⟨?before, ?after⟩⟩,
    fun s h l m j a old hr hg unwritten hm hj hl => ?burst⟩
  case host =>
    exact ⟨rfl, fun idle => hostMemByte_idle idle a old, fun w => hostMemByte_unwritten (s := acceptCommand w s) rfl a old,
      fun b v => hostMemByte_hostMemWrite a b v old s⟩
  case before =>
    exact (hostMemByte_old (s := perform (.hostWrite h m) s) busy a).trans (hostMemByte_old busy a).symm
  case after =>
    rw [hostMemByte_new, hostMemByte_new]
    exact Memory.hostRead_hostWrite _ _ _ _
  case burst =>
    have keep {α : Type} (f : State → α) (hf : ∀ k u, f (afterReadByte false h m k u) = f u) :
        f (afterReadBytes false h m j s) = f s := afterReadBytes_keeps f false h m hf j s
    have arst := (keep State.arst fun _ _ => rfl).trans hr.quiet.arst
    have before := (keep State.hostmemBefore fun _ _ => rfl).trans unwritten
    have reads := keep State.memReads fun _ _ => rfl
    obtain ⟨op, rest, run⟩ := exec_bulkRead_placed hr hg h hm hj hl [.memRead a old]
    refine ⟨_, run, (memReads_runOps_memRead op rest ?_ rfl).trans (congrArg₂ (fun b r => (a, b) :: r) ?_ reads)⟩
    · exact arst
    · cases old with
      | false => exact hostMemByte_new a _
      | true => exact (hostMemByte_old rfl a).trans (congrArg (Memory.hostRead · a) before)

/-! ## The cursor of the reference VDP -/

/-- The cursor `n` bytes on (R80, R81). -/
theorem toNat_cursor_add (c : VramAddr) (n : Nat) : (c + BitVec.ofNat 14 n).toNat = (c.toNat + n) % 2 ^ 14 := by
  rw [BitVec.toNat_add, BitVec.toNat_ofNat, Nat.add_mod_mod]

theorem cursor_add_succ (c : VramAddr) (n : Nat) : c + BitVec.ofNat 14 n + 1 = c + BitVec.ofNat 14 (n + 1) := by
  rw [BitVec.add_assoc, BitVec.ofNat_add]
  rfl

/-! ## BULK_WRITE to the reference VDP -/

/-- `u` is the VDP `v` with the bytes `byte 0 .. byte (n - 1)` stored from its cursor `c` on, which was set up for writing
(R80). Where more than 2^14 bytes went round, the last at a place is there. -/
structure Filled (v : RefVdp) (c : VramAddr) (byte : Nat → Byte) (n : Nat) (u : RefVdp) : Prop where
  vreg : u.vreg = v.vreg
  cursor : u.cursor = some (c + BitVec.ofNat 14 n)
  dirn : u.dirn = some .forWrite
  stored : ∀ k < n, n ≤ k + 2 ^ 14 → u.vram.read? ((c.toNat + k) % 2 ^ 14) = some (byte k)
  others : ∀ x, (∀ k < n, x ≠ (c.toNat + k) % 2 ^ 14) → u.vram.read? x = v.vram.read? x

theorem Filled.zero {v : RefVdp} {c : VramAddr} (byte : Nat → Byte) (cursor : v.cursor = some c)
    (dirn : v.dirn = some .forWrite) : Filled v c byte 0 v where
  vreg := rfl
  cursor := by rw [cursor, BitVec.add_zero]
  dirn := dirn
  stored k hk := absurd hk (Nat.not_lt_zero k)
  others _ _ := rfl

/-- The next data frame stores the next byte: at a place none of the 2^14 - 1 bytes before it is at (R80). -/
theorem Filled.succ {v u : RefVdp} {c : VramAddr} {byte : Nat → Byte} {n : Nat} (h : Filled v c byte n u) :
    Filled v c byte (n + 1) (u.writeFrame false (byte n)) := by
  rw [RefVdp.writeFrame_data h.cursor h.dirn]
  refine ⟨h.vreg, congrArg some (cursor_add_succ c n), h.dirn, fun k hk near => ?stored, fun x hx => ?others⟩
  case stored =>
    rw [toNat_cursor_add, Memory.read?_write]
    split
    next same =>
      have : k = n := by omega
      rw [this]
    next differ =>
      have : k ≠ n := fun e => differ (e ▸ rfl)
      exact h.stored k (by omega) (by omega)
  case others =>
    rw [toNat_cursor_add, Memory.read?_write_other _ _ (hx n n.lt_succ_self)]
    exact h.others x fun k hk => hx k (hk.trans n.lt_succ_self)

/-- The bytes of a write burst are stored one after another (R80, R194). -/
theorem filled_afterWriteBytes (paced : Bool) (h m : BitVec 16) {s : State} {v : RefVdp} {c : VramAddr}
    (vdp : s.vdp = some v) (cursor : v.cursor = some c) (dirn : v.dirn = some .forWrite) (n : Nat) :
    ∃ u, (afterWriteBytes paced h m n s).vdp = some u ∧
      Filled v c (fun k => s.hostmem.hostRead (byteAddress h m k)) n u := by
  induction n with
  | zero => exact ⟨v, vdp, .zero _ cursor dirn⟩
  | succ n ih =>
    obtain ⟨u, hu, filled⟩ := ih
    have hostmem : (afterWriteBytes paced h m n s).hostmem = s.hostmem :=
      afterWriteBytes_keeps State.hostmem paced h m (fun _ _ => rfl) n s
    refine ⟨_, ?_, filled.succ⟩
    rw [afterWriteBytes, afterWriteByte, hu, hostmem]
    rfl

/-- Settles O47: the burst stores its bytes one after another, and the status frame at its end touches no byte. -/
theorem bulkWriteFillsVideoMemory : Obligations.BulkWriteFillsVideoMemory := by
  intro s h l m paced o v c hr hl hm runs vdp cursor dirn
  obtain ⟨hostmem, attached, -, result⟩ := burstStart_fields paced s
  obtain ⟨u, hu, filled⟩ := filled_afterWriteBytes paced h m
    (s := { burstStart paced s with p := paced, n := count (burstStart paced s) paced l }) (attached.trans vdp) cursor
    dirn (count (burstStart paced s) paced l).toNat
  have vdpEnd : (afterWriteBurst paced h l m (burstStart paced s)).vdp = some (u.readFrame true) :=
    congrArg (Option.map (RefVdp.readFrame · true)) hu
  refine ⟨_, _, bulkWrite_of_burstRuns hr hl hm runs, result l, vdpEnd, filled.vreg, rfl, fun k hk near => ?_,
    filled.others⟩
  rw [← hostmem]
  exact filled.stored k hk near

/-! ## BULK_READ from the reference VDP -/

/-- Bytes of a burst that are fewer than `M` apart have different host addresses (R202). -/
theorem byteAddress_ne (h : BitVec 16) {m : BitVec 16} {k n : Nat} (hm : 1 ≤ m.toNat) (lt : k < n)
    (near : n < k + m.toNat) : byteAddress h m k ≠ byteAddress h m n := by
  intro same
  have offset : k % m.toNat = n % m.toNat := by
    have sum := congrArg BitVec.toNat same
    rw [byteAddress, byteAddress, BitVec.toNat_ofNat, BitVec.toNat_ofNat] at sum
    have hk := Nat.mod_lt k hm
    have hn := Nat.mod_lt n hm
    omega
  have apart : m.toNat ∣ n - k := (Nat.modEq_iff_dvd' lt.le).mp offset
  have := Nat.le_of_dvd (by omega) apart
  omega

/-- After `n` bytes of a read burst from the VDP `v` at its cursor `c`: the VDP has only moved its cursor, and the last
bytes read of VRAM are at their places in HOSTMEM (R81, R197). -/
structure Captured (v : RefVdp) (c : VramAddr) (h m : BitVec 16) (n : Nat) (t : State) : Prop where
  shared : t.dshared = false
  vdp : t.vdp = some { v with cursor := some (c + BitVec.ofNat 14 n) }
  copied : ∀ k < n, n ≤ k + m.toNat → ∀ b, v.vram.read? ((c.toNat + k) % 2 ^ 14) = some b →
    t.hostmem.hostRead (byteAddress h m k) = b

theorem Captured.zero {s : State} {v : RefVdp} {c : VramAddr} (h m : BitVec 16) (shared : s.dshared = false)
    (vdp : s.vdp = some v) (cursor : v.cursor = some c) : Captured v c h m 0 s where
  shared := shared
  vdp := by rw [vdp, BitVec.add_zero, ← cursor]
  copied k hk := absurd hk (Nat.not_lt_zero k)

/-- Where the board keeps DOUT off the sampled lines, a defined byte at the cursor is the byte sampled (R81, R201). -/
theorem dataByte_of_read {s : State} {v : RefVdp} {c : VramAddr} {b : Byte} (shared : s.dshared = false)
    (vdp : s.vdp = some v) (isolated : v.isolated = true) (cursor : v.cursor = some c) (dirn : v.dirn = some .forRead)
    (byte : v.vram.read? c.toNat = some b) : dataByte s = b := by
  simp [dataByte, dataAnswer, vdp, shared, isolated, RefVdp.answer_data cursor dirn, byte]

/-- The next byte goes to a place none of the `M - 1` bytes before it is at (R197, R202). -/
theorem Captured.succ {v : RefVdp} {c : VramAddr} {h m : BitVec 16} {n : Nat} {t : State} (captured : Captured v c h m n t)
    (hm : 1 ≤ m.toNat) (isolated : v.isolated = true) (dirn : v.dirn = some .forRead) (paced : Bool) :
    Captured v c h m (n + 1) (afterReadByte paced h m n t) := by
  refine ⟨captured.shared, ?vdp, fun k hk near b byte => ?copied⟩
  case vdp =>
    rw [afterReadByte, captured.vdp, ← cursor_add_succ]
    exact congrArg some (RefVdp.readFrame_data rfl dirn)
  case copied =>
    have write : (afterReadByte paced h m n t).hostmem = t.hostmem.hostWrite (byteAddress h m n) (dataByte t) := rfl
    rw [write]
    obtain rfl | lt : k = n ∨ k < n := by omega
    · rw [Memory.hostRead_hostWrite_same]
      rw [← toNat_cursor_add] at byte
      exact dataByte_of_read captured.shared captured.vdp isolated rfl dirn byte
    · rw [Memory.hostRead_hostWrite_other _ _ (byteAddress_ne h hm lt (by omega))]
      exact captured.copied k lt (by omega) b byte

/-- The bytes of a read burst are copied one after another (R81, R195). -/
theorem captured_afterReadBytes (paced : Bool) (h : BitVec 16) {m : BitVec 16} {s : State} {v : RefVdp} {c : VramAddr}
    (hm : 1 ≤ m.toNat) (shared : s.dshared = false) (vdp : s.vdp = some v) (isolated : v.isolated = true)
    (cursor : v.cursor = some c) (dirn : v.dirn = some .forRead) (n : Nat) :
    Captured v c h m n (afterReadBytes paced h m n s) := by
  induction n with
  | zero => exact .zero h m shared vdp cursor
  | succ n ih => exact ih.succ hm isolated dirn paced

/-- Settles O48: the burst copies its bytes one after another, and no frame of it, the status frame at its end among
them, touches VRAM. -/
theorem bulkReadCopiesVideoMemory : Obligations.BulkReadCopiesVideoMemory := by
  intro s h l m paced o v c hr hl hm runs vdp isolated shared cursor dirn
  obtain ⟨-, attached, board, result⟩ := burstStart_fields paced s
  have captured := captured_afterReadBytes paced h
    (s := { burstStart paced s with p := paced, n := count (burstStart paced s) paced l }) hm (board.trans shared)
    (attached.trans vdp) isolated cursor dirn (count (burstStart paced s) paced l).toNat
  have vdpEnd := congrArg (Option.map (RefVdp.readFrame · true)) captured.vdp
  exact ⟨afterReadBurst paced h l m (burstStart paced s), _, bulkRead_of_burstRuns hr hl hm runs, result l, vdpEnd, rfl,
    rfl, captured.copied⟩

end Sys2Proof.Machine

/-! Words and commands: every command is read back from its own word, the opcode alone selects, and reserved bits are
not read (R90-R95). -/

namespace Sys2Proof

open Sys2Proof.Expected Sys2Proof.Machine

/-! ## The payload of each format -/

/-- A field of a command's word below the opcode is one of its payload (R91). -/
theorem field_encode (i : Instr) {lo n : Nat} (h : lo + n ≤ 48) :
    field (encode i) lo n = i.payload.extractLsb' lo n := BitVec.extractLsb'_append_eq_of_add_le h

theorem fieldBit_encode (i : Instr) {k : Nat} (h : k < 48) : fieldBit (encode i) k = i.payload.getLsbD k :=
  getLsbD_append_low _ _ h

theorem opcodeOf_encode (i : Instr) : opcodeOf (encode i) = i.opcode := opcodeOf_word _ _

theorem SeqVariant.ofBit_toBit (v : SeqVariant) : SeqVariant.ofBit v.toBit = v := by cases v <;> rfl

theorem BlankPolarity.ofBit_toBit (v : BlankPolarity) : BlankPolarity.ofBit v.toBit = v := by cases v <;> rfl

theorem Direction.ofBit_toBit (d : Direction) : Direction.ofBit d.toBit = d := by cases d <;> rfl

/-- The lowest bit of a payload that is one bit. -/
theorem getLsbD_append_bit1 {n : Nat} (x : BitVec n) (b : Bool) : (x ++ bit1 b).getLsbD 0 = b :=
  (getLsbD_append_low x (bit1 b) Nat.one_pos).trans (getLsbD_bit1 b)

/-- The operands of F_CFG at their places (R91). -/
theorem payload_cfgPins (csr csw mode rst int : BitVec 4) (pres : BitVec 8) (var : SeqVariant) (bpol : BlankPolarity)
    (dsh : Bool) :
    let p := (Instr.cfgPins csr csw mode rst int pres var bpol dsh).payload
    p.extractLsb' 0 4 = csr ∧ p.extractLsb' 4 4 = csw ∧ p.extractLsb' 8 4 = mode ∧ p.extractLsb' 12 4 = rst ∧
      p.extractLsb' 16 4 = int ∧ p.extractLsb' 20 8 = pres ∧ p.getLsbD 28 = var.toBit ∧ p.getLsbD 29 = bpol.toBit ∧
      p.getLsbD 30 = dsh := by
  intro p
  change
    let bit := BitVec.getLsbD (w := 17 + 1 + 1 + 1 + 8 + 4 + 4 + 4 + 4 + 4) p
    let slice (lo n : Nat) := BitVec.extractLsb' (n := 17 + 1 + 1 + 1 + 8 + 4 + 4 + 4 + 4 + 4) lo n p
    slice 0 4 = _ ∧ slice 4 4 = _ ∧ slice 8 4 = _ ∧ slice 12 4 = _ ∧ slice 16 4 = _ ∧ slice 20 8 = _ ∧
      bit 28 = _ ∧ bit 29 = _ ∧ bit 30 = _
  simp (disch := decide) only [p, Instr.payload, getLsbD_append_low, getLsbD_append_high, getLsbD_bit1, Nat.reduceSub,
    BitVec.extractLsb'_append_eq_of_le, BitVec.extractLsb'_append_eq_of_add_le, BitVec.extractLsb'_eq_self, and_true]

theorem payload_initDevice (md : BitVec 3) (flags : BitVec 8) (txt bg : BitVec 4) :
    let p := (Instr.initDevice md flags txt bg).payload
    p.extractLsb' 0 3 = md ∧ p.extractLsb' 8 8 = flags ∧ p.extractLsb' 16 4 = txt ∧ p.extractLsb' 20 4 = bg := by
  intro p
  change
    let slice (lo n : Nat) := BitVec.extractLsb' (n := 24 + 4 + 4 + 8 + 5 + 3) lo n p
    slice 0 3 = _ ∧ slice 8 8 = _ ∧ slice 16 4 = _ ∧ slice 20 4 = _
  simp (disch := decide) only [p, Instr.payload, Nat.reduceSub, BitVec.extractLsb'_append_eq_of_le,
    BitVec.extractLsb'_append_eq_of_add_le, BitVec.extractLsb'_eq_self, and_true]

theorem payload_setAddr (a : VramAddr) (rd : Direction) :
    let p := (Instr.setAddr a rd).payload
    p.extractLsb' 0 14 = a ∧ p.getLsbD 16 = rd.toBit := by
  intro p
  refine ⟨BitVec.extractLsb'_append_eq_right (a := 0#31 ++ bit1 rd.toBit ++ 0#2), ?_⟩
  change BitVec.getLsbD (w := 31 + 1 + 2 + 14) p 16 = rd.toBit
  simp (disch := decide) only [p, Instr.payload, getLsbD_append_low, getLsbD_append_high, getLsbD_bit1, Nat.reduceSub]

theorem payload_setRegRaw (idx val : BitVec 8) :
    let p := (Instr.setRegRaw idx val).payload
    p.extractLsb' 8 8 = idx ∧ p.extractLsb' 0 8 = val := by
  intro p
  change
    let slice (lo n : Nat) := BitVec.extractLsb' (n := 32 + 8 + 8) lo n p
    slice 8 8 = _ ∧ slice 0 8 = _
  simp (disch := decide) only [p, Instr.payload, Nat.reduceSub, BitVec.extractLsb'_append_eq_of_le,
    BitVec.extractLsb'_append_eq_of_add_le, BitVec.extractLsb'_eq_self, and_true]

/-- The payload of BULK_WRITE and BULK_READ alike: H, L, M (R91). -/
theorem bulkPayload_fields (h l m : BitVec 16) :
    let p := h ++ l ++ m
    p.extractLsb' 32 16 = h ∧ p.extractLsb' 16 16 = l ∧ p.extractLsb' 0 16 = m := by
  simp (disch := decide) only [Nat.reduceSub, BitVec.extractLsb'_append_eq_of_le,
    BitVec.extractLsb'_append_eq_of_add_le, BitVec.extractLsb'_eq_self, and_true]

theorem payload_setTableBase (a : VramAddr) (t : BitVec 3) :
    let p := (Instr.setTableBase a t).payload
    p.extractLsb' 0 14 = a ∧ p.extractLsb' 16 3 = t := by
  intro p
  change
    let slice (lo n : Nat) := BitVec.extractLsb' (n := 29 + 3 + 2 + 14) lo n p
    slice 0 14 = _ ∧ slice 16 3 = _
  simp (disch := decide) only [p, Instr.payload, Nat.reduceSub, BitVec.extractLsb'_append_eq_of_le,
    BitVec.extractLsb'_append_eq_of_add_le, BitVec.extractLsb'_eq_self, and_true]

/-- Settles O1: the opcode picks the command's own row, and each operand is found at its place in the payload. -/
theorem decodeAfterEncodeGivesTheCommand : Obligations.DecodeAfterEncodeGivesTheCommand := by
  intro i
  have opcode : (opcodeOf (encode i)).toNat = i.opcode.toNat := congrArg BitVec.toNat (opcodeOf_encode i)
  cases i with
  | nop | initPorts | readStatus | clearFlags =>
    simp only [decode, opcode, Instr.opcode, BitVec.reduceToNat]
  | cfgPins csr csw mode rst int pres var bpol dsh =>
    obtain ⟨hcsr, hcsw, hmode, hrst, hint, hpres, hvar, hbpol, hdsh⟩ :=
      payload_cfgPins csr csw mode rst int pres var bpol dsh
    simp (disch := decide) only [decode, opcode, Instr.opcode, BitVec.reduceToNat, field_encode, fieldBit_encode,
      hcsr, hcsw, hmode, hrst, hint, hpres, hvar, hbpol, hdsh, SeqVariant.ofBit_toBit, BlankPolarity.ofBit_toBit]
  | initDevice md flags txt bg =>
    obtain ⟨hmd, hflags, htxt, hbg⟩ := payload_initDevice md flags txt bg
    simp (disch := decide) only [decode, opcode, Instr.opcode, BitVec.reduceToNat, field_encode, hmd, hflags, htxt, hbg]
  | setMode md =>
    have low : (Instr.setMode md).payload.extractLsb' 0 3 = md := BitVec.extractLsb'_append_eq_right (a := 0#45)
    simp (disch := decide) only [decode, opcode, Instr.opcode, BitVec.reduceToNat, field_encode, low]
  | setBlank b | setIrqEnable b | setSpriteSize b | setSpriteMag b =>
    have low := getLsbD_append_bit1 (0#47) b
    simp (disch := decide) only [decode, opcode, Instr.opcode, BitVec.reduceToNat, fieldBit_encode, Instr.payload, low]
  | setTextColor c | setBgColor c =>
    have low : (0#44 ++ c).extractLsb' 0 4 = c := BitVec.extractLsb'_append_eq_right
    simp (disch := decide) only [decode, opcode, Instr.opcode, BitVec.reduceToNat, field_encode, Instr.payload, low]
  | setRegRaw idx val =>
    obtain ⟨hidx, hval⟩ := payload_setRegRaw idx val
    simp (disch := decide) only [decode, opcode, Instr.opcode, BitVec.reduceToNat, field_encode, hidx, hval]
  | setAddr a rd =>
    obtain ⟨ha, hrd⟩ := payload_setAddr a rd
    simp (disch := decide) only [decode, opcode, Instr.opcode, BitVec.reduceToNat, field_encode, fieldBit_encode, ha,
      hrd, Direction.ofBit_toBit]
  | bulkWrite h l m | bulkRead h l m =>
    obtain ⟨hh, hl, hm⟩ := bulkPayload_fields h l m
    simp (disch := decide) only [decode, opcode, Instr.opcode, BitVec.reduceToNat, field_encode, Instr.payload, hh, hl,
      hm]
  | setTableBase a t =>
    obtain ⟨ha, ht⟩ := payload_setTableBase a t
    simp (disch := decide) only [decode, opcode, Instr.opcode, BitVec.reduceToNat, field_encode, ha, ht]

/-! ## The opcode selects -/

/-- Every opcode of the table selects a command (R94). -/
theorem decode_assigned {w : CommandWord} (h : (opcodeOf w).toNat ≤ 0x11) : ∃ i, decode w = .ok i := by
  unfold decode
  generalize (opcodeOf w).toNat = op at h ⊢
  interval_cases op <;> exact ⟨_, rfl⟩

/-- Every other opcode selects none (R95). -/
theorem decode_unassigned {w : CommandWord} (h : 0x12 ≤ (opcodeOf w).toNat) :
    decode w = .error (.unassignedOpcode (opcodeOf w)) := by
  unfold decode
  split
  case h_19 => rfl
  all_goals omega

/-- Exactly the words with an opcode of the table are commands (R94, R95). -/
theorem decode_isOk_iff (w : CommandWord) : (∃ i, decode w = .ok i) ↔ (opcodeOf w).toNat ≤ 0x11 := by
  refine ⟨fun ⟨i, ok⟩ => ?_, decode_assigned⟩
  by_contra unassigned
  rw [decode_unassigned (by omega)] at ok
  nomatch ok

/-- Settles O3: a decoded command has the word's opcode, and each of the four commands without operands is its row. -/
theorem opcodeAloneSelectsTheCommand : Obligations.OpcodeAloneSelectsTheCommand := by
  simp only [Obligations.OpcodeAloneSelectsTheCommand, ← toNat_opcodeOf]
  refine ⟨fun w i => opcode_of_decode, decode_isOk_iff, ?_, ?_, ?_, ?_, fun w => decode_unassigned⟩
  all_goals
    intro w op
    simp only [decode, op]

/-- Settles O5: each word evaluates to its command. -/
theorem writtenOutWordsDecode : Obligations.WrittenOutWordsDecode :=
  ⟨rfl, rfl, rfl, rfl, rfl, rfl, rfl, rfl, rfl, rfl, rfl, rfl, rfl, rfl, rfl, rfl, rfl, rfl, rfl⟩

/-! ## Reserved bits -/

/-- Two words agree on the bits that `mask` has. -/
def AgreeOn (mask w w' : CommandWord) : Prop := ∀ k < 64, mask.getLsbD k = true → w'.getLsbD k = w.getLsbD k

theorem agreeOn_of_xor {mask w w' : CommandWord} (h : (w ^^^ w') &&& mask = 0) : AgreeOn mask w w' := by
  intro k hk listed
  have bit : ((w ^^^ w') &&& mask).getLsbD k = false := by rw [h]; exact BitVec.getLsbD_zero
  rw [BitVec.getLsbD_and, BitVec.getLsbD_xor, listed, Bool.and_true, bne_eq_false_iff_eq] at bit
  exact bit.symm

/-- A field whose bits are all listed is the same in both words. -/
theorem AgreeOn.field {mask w w' : CommandWord} (h : AgreeOn mask w w') {lo n : Nat}
    (listed : ∀ k < n, lo + k < 64 ∧ mask.getLsbD (lo + k) = true) : field w' lo n = field w lo n := by
  apply BitVec.eq_of_getLsbD_eq
  intro k hk
  obtain ⟨inside, bit⟩ := listed k hk
  simp only [Sys2Proof.field, BitVec.getLsbD_extractLsb', h _ inside bit]

theorem AgreeOn.fieldBit {mask w w' : CommandWord} (h : AgreeOn mask w w') {k : Nat} (inside : k < 64)
    (bit : mask.getLsbD k = true) : fieldBit w' k = fieldBit w k := h k inside bit

/-- Every format lists the opcode (R90). -/
theorem listedBits_opcode (op : Opcode) : ∀ k < 8, 56 + k < 64 ∧ (listedBits op).getLsbD (56 + k) = true := by
  unfold listedBits
  split <;> decide

/-- The decoder reads no reserved bit: words that agree on the listed ones are the same command (R93). -/
theorem decode_congr {w w' : CommandWord} (h : AgreeOn (listedBits (opcodeOf w)) w w') : decode w' = decode w := by
  have op : opcodeOf w' = opcodeOf w := h.field (listedBits_opcode _)
  by_cases assigned : (opcodeOf w).toNat ≤ 0x11
  · unfold decode
    unfold listedBits at h
    rw [op]
    generalize (opcodeOf w).toNat = n at h assigned ⊢
    interval_cases n <;> simp (disch := decide) only [h.field, h.fieldBit]
  · have unassigned : 0x12 ≤ (opcodeOf w).toNat := by omega
    rw [decode_unassigned unassigned, decode_unassigned (op ▸ unassigned), op]

end Sys2Proof

/-! The command cycle from the accepted word to the end of the command: what the step starts, the guard, and the two
ends a command can have (R93, R95, R100-R106); SET_TABLE_BASE and SET_ADDR (R151, R271). -/

namespace Sys2Proof.Machine

open Sys2Proof.Expected

/-! ## A word is accepted -/

/-- A word written while the adapter is idle starts its command (R100, R101). -/
theorem step_of_command {s : State} {w : CommandWord} {rest : List Input} (inputs : s.inputs = .command w :: rest)
    (busy : s.busy = false) (arst : s.arst = false) : step s = startCommand w { s with inputs := rest } := by
  have starts : turn s = .start w { s with inputs := rest } := by simp [turn, inputs, busy, arst]
  rw [step, starts]

/-- A word presented to an idle adapter starts its command (R100). -/
theorem step_presentCommand (w : CommandWord) (s : State) :
    step (presentCommand w s) =
      startCommand w { s with busy := false, waitInt := false, todo := [], arst := false } :=
  step_of_command rfl rfl rfl

/-- Settles O6: the step starts the command, and accepting the word is what sets CW, BUSY and `hostmemBefore`. -/
theorem stepRunsTheDecodedCommand : Obligations.StepRunsTheDecodedCommand := by
  intro s w rest i inputs busy arst ok
  rw [step_of_command inputs busy arst, startCommand, ok]
  rfl

/-- Settles O7: such a word runs two steps, ILL <- 1 and `noop()`. -/
theorem unassignedOpcodeSetsIllAndIsANoop : Obligations.UnassignedOpcodeSetsIllAndIsANoop := by
  intro s w rest inputs waits busy arst unassigned
  have noCommand := decode_unassigned (w := w) (by rwa [toNat_opcodeOf])
  rw [step_of_command inputs busy arst, startCommand_eq, acceptedSteps, noCommand]
  exact congrArg Host.Outcome.next (runOps_quiet (ops := [.setIll, .noop false]) waits arst (by simp))

/-- `u` is `s` but for CW (R23). -/
def SameButCw (s u : State) : Prop := ∃ cw, u = { s with cw }

namespace SameButCw

variable {s u : State}

theorem landInput (h : SameButCw s u) (i : Input) : SameButCw (landInput i s) (landInput i u) := by
  obtain ⟨cw, rfl⟩ := h
  cases i with
  | arst b => cases b <;> exact ⟨_, rfl⟩
  | command w => simp only [Machine.landInput, dropCommand]; split <;> exact ⟨_, rfl⟩
  | ctrlWrite m v => simp only [Machine.landInput]; split <;> exact ⟨_, rfl⟩
  | ctrlDirWrite m v => simp only [Machine.landInput]; split <;> exact ⟨_, rfl⟩
  | _ => exact ⟨_, rfl⟩

/-- No step of the pseudocode reads CW. -/
theorem perform (h : SameButCw s u) (op : MicroOp) : SameButCw (perform op s) (perform op u) := by
  obtain ⟨cw, rfl⟩ := h
  cases op <;> exact ⟨_, rfl⟩

/-- A command runs as it would with another word in CW. -/
theorem runOps (h : SameButCw s u) (ops : List MicroOp) : SameButCw (runOps ops s) (runOps ops u) := by
  refine runOps_relates (fun i _ _ h => h.landInput i) ?inputs (fun op _ _ h => h.perform op) ?todo ?same ops h
  case inputs => rintro s _ l ⟨cw, rfl⟩; exact ⟨_, rfl⟩
  case todo => rintro s _ l ⟨cw, rfl⟩; exact ⟨_, rfl⟩
  case same => rintro s _ ⟨cw, rfl⟩; exact ⟨rfl, rfl, rfl⟩

end SameButCw

/-- Settles O4: both words start the same steps, and no step and no landing looks at CW. -/
theorem reservedBitsHaveNoEffect : Obligations.ReservedBitsHaveNoEffect := by
  intro w w' s reserved
  have same := decode_congr (agreeOn_of_xor reserved)
  refine ⟨same, ?_⟩
  rw [step_presentCommand, step_presentCommand, startCommand_eq, startCommand_eq]
  generalize ({ s with busy := false, waitInt := false, todo := [], arst := false } : State) = idle
  have started : acceptedSteps w' idle = acceptedSteps w idle := by simp only [acceptedSteps, same]
  have accepted : SameButCw (acceptCommand w idle) (acceptCommand w' idle) := ⟨w', rfl⟩
  obtain ⟨cw, ran⟩ := accepted.runOps (acceptedSteps w idle)
  refine ⟨_, _, rfl, rfl, ?_⟩
  rw [started, ran]

/-! ## The guard -/

/-- Settles O9: with its guard false a command's steps are the no-op alone. -/
theorem failedGuardIsASilentNoop : Obligations.FailedGuardIsASilentNoop := by
  intro i s quiet fails
  rw [exec_eq_execute, stepsOf, if_neg (Bool.eq_false_iff.mp fails)]
  exact execute_noop_quiet quiet _

/-- Only a bulk command with the gate open has a window wait (R190, R193). -/
theorem isBulk_of_windowWait_mem_bodyOf {s : State} {i : Instr} (h : .windowWait ∈ bodyOf s i) :
    isBulk i = true ∧ gate s = true := by
  have noWait {byte : List MicroOp} (l : BitVec 16) (hb : .windowWait ∉ byte) (g : gate s = false) :
      .windowWait ∉ bulkOps s l byte := by
    simp [bulkOps, g, windowWait, burstOps, windowWait_not_mem_byteLoop _ hb, windowWait_not_mem_statusRead]
  have burst : .burst ∈ partsOf i := within_bodyOf s i _ h _ (by simp [MicroOp.parts])
  cases i with
  | bulkWrite base l m =>
    exact ⟨rfl, by_contra fun g => noWait l (windowWait_not_mem_writeByte base m) (Bool.eq_false_iff.mpr g) h⟩
  | bulkRead base l m =>
    exact ⟨rfl, by_contra fun g => noWait l (windowWait_not_mem_readByte base m) (Bool.eq_false_iff.mpr g) h⟩
  | _ => simp [partsOf] at burst

/-- Steps that nothing interrupts and that end with `finish(r)` leave the adapter idle, and no no-op (R103). -/
theorem runOps_finish_quiet {ops : List MicroOp} (r : ResultSource) {s : State} (hi : hostWaits s.inputs = true)
    (ha : s.arst = false) (noWait : .windowWait ∉ ops) :
    (runOps (ops ++ [.finish r]) s).busy = false ∧ (runOps (ops ++ [.finish r]) s).noopFlag = false ∧
      (runOps (ops ++ [.finish r]) s).todo = [] := by
  rw [runOps_quiet hi ha (by simpa using noWait), performAll_append]
  exact ⟨rfl, rfl, rfl⟩

/-- Up to its burst a bulk command with the gate open has two steps that move nothing, and its window wait: it finds the
level and goes on to `finish(N)`, or stands there (R190, R193). -/
theorem execute_bulk_finishes_or_waits {s : State} (hq : Quiet s) (hg : gate s = true) (l : BitVec 16)
    {byte : List MicroOp} (noWait : .windowWait ∉ byte) :
    ∃ t, execute (bulkOps s l byte ++ [.finish .count]) s = .next t ∧
      ((t.busy = false ∧ t.noopFlag = false ∧ t.todo = []) ∨
        (t.busy = true ∧ t.waitInt = true ∧ t.result = s.result)) := by
  by_cases level : intLevel s = s.params.intWaitLevel
  · have burst : .windowWait ∉ burstOps s.seqVariant true (effectiveCount s.params true l) l byte := by
      simp [burstOps, windowWait_not_mem_byteLoop true noWait, windowWait_not_mem_statusRead]
    have goesOn : execute (bulkOps s l byte ++ [.finish .count]) s =
        .next (runOps (burstOps s.seqVariant true (effectiveCount s.params true l) l byte ++ [.finish .count])
          (pollInt { s with busy := true, p := true, waitInt := true })) := by
      rw [bulkOps_paced hg, execute]
      refine congrArg Host.Outcome.next ?_
      exact (runOps_append_quiet (a := [.setPace true, .enterWait]) _ (s := { s with busy := true }) hq.inputs hq.arst
        (by simp)).trans (runOps_windowWait_level _ (s := { s with busy := true, p := true, waitInt := true })
          ⟨hq.inputs, hq.arst⟩ level)
    exact ⟨_, goesOn, .inl (runOps_finish_quiet .count hq.inputs hq.arst burst)⟩
  · exact ⟨_, execute_bulk_waits hq hg level l byte, .inr ⟨rfl, bne_iff_ne.mpr level, rfl⟩⟩

/-- Settles O10: with no window wait among its steps a command runs to its `finish`; the others are bulk commands with
the gate open. -/
theorem passedGuardFinishes : Obligations.PassedGuardFinishes := by
  intro i s quiet holds
  rw [exec_eq_execute, stepsOf, if_pos holds]
  by_cases wait : .windowWait ∈ bodyOf s i
  · obtain ⟨bulk, opened⟩ := isBulk_of_windowWait_mem_bodyOf wait
    have finishesOrWaits (l : BitVec 16) {byte : List MicroOp} (noWait : .windowWait ∉ byte) :=
      execute_bulk_finishes_or_waits quiet opened l noWait
    have ends : ∃ t, execute (bodyOf s i ++ [.finish (resultOf i)]) s = .next t ∧
        ((t.busy = false ∧ t.noopFlag = false ∧ t.todo = []) ∨
          (t.busy = true ∧ t.waitInt = true ∧ t.result = s.result)) := by
      cases i with
      | bulkWrite base l m => exact finishesOrWaits l (windowWait_not_mem_writeByte base m)
      | bulkRead base l m => exact finishesOrWaits l (windowWait_not_mem_readByte base m)
      | _ => simp [isBulk, Instr.opcode] at bulk
    obtain ⟨t, e, h⟩ := ends
    exact ⟨t, e, h.imp_right fun waits => ⟨bulk, opened, waits⟩⟩
  · exact ⟨_, rfl, .inl (runOps_finish_quiet (s := { s with busy := true }) _ quiet.inputs quiet.arst wait)⟩

/-! ## SET_TABLE_BASE -/

/-- SET_TABLE_BASE with a table id, once the pins are configured (R271). -/
theorem exec_setTableBase {s : State} (hq : Quiet s) (configured : s.configured = true) {t : BitVec 3} {table : Table}
    (ht : tableOfId t = some table) (a : VramAddr) :
    exec (.setTableBase a t) s = .next (done 0 { s with tbase := s.tbase.set table a }) := by
  have run := command_true_quiet hq (ops := [.setTable table a]) .zero (by simp)
  simp only [exec, execSetTableBase, ht, gCfg, configured, run]
  rfl

/-- Settles O13: the five table ids one by one; the other ids, and no valid CFG_PINS, make the guard false. -/
theorem setTableBaseStoresTheBase : Obligations.SetTableBaseStoresTheBase := by
  intro s a quiet
  refine ⟨fun configured => ?stores, fun t fails => ?noop⟩
  case stores =>
    have stores {t : BitVec 3} {table : Table} (ht : tableOfId t = some table) :=
      exec_setTableBase quiet configured ht a
    exact ⟨stores (table := .name) rfl, stores (table := .colour) rfl, stores (table := .pattern) rfl,
      stores (table := .spriteAttribute) rfl, stores (table := .spritePattern) rfl⟩
  case noop =>
    refine failedGuardIsASilentNoop (.setTableBase a t) s quiet ?_
    rw [guardHolds, Instr.WellFormed, Instr.tableLegal, Bool.and_eq_false_iff, decide_eq_false_iff_not]
    exact fails.imp_right Nat.not_le.mpr

/-! ## One framing pair -/

/-- A command that is one framing pair, from the idle bus (R138). -/
theorem command_pair {s : State} (hr : Ready s) (b1 b2 : Byte) :
    command (gReady s) (frame2 s.seqVariant b1 b2) .zero s = .next (done 0 (afterPair s (b1, b2))) := by
  have ready : gReady s = true := by rw [gReady, hr.configured, hr.portsInit]; rfl
  have pair : performAll (frame2 s.seqVariant b1 b2) { s with busy := true } =
      afterPair { s with busy := true } (b1, b2) :=
    performAll_frame2 (s := { s with busy := true }) hr.configured (hr.pins.of_bus rfl) (hr.idle.of_bus rfl) b1 b2
  rw [ready, command_true_quiet hr.quiet .zero (windowWait_not_mem_frame2 _ _ _), pair]
  rfl

/-- A value below bit `k` beside that bit, in a byte (R96, R97). -/
theorem toNat_bit_or_setWidth {n k : Nat} (hn : n ≤ k) (hk : k < 8) (x : BitVec n) :
    (BitVec.ofNat 8 (2 ^ k) ||| x.setWidth 8).toNat = 2 ^ k + x.toNat := by
  have small : x.toNat < 2 ^ k := x.isLt.trans_le (Nat.pow_le_pow_right (by decide) hn)
  have bit : (BitVec.ofNat 8 (2 ^ k)).toNat = 2 ^ k := Nat.mod_eq_of_lt (Nat.pow_lt_pow_right (by decide) hk)
  have or := Nat.two_pow_add_eq_or_of_lt small 1
  rw [Nat.mul_one] at or
  rw [BitVec.toNat_or, bit, BitVec.toNat_setWidth_of_le (by omega), or]

/-- The two address bytes as numbers (R97, R150). -/
theorem toNat_addressLow (a : VramAddr) : (addressLow a).toNat = a.toNat % 256 := by
  rw [addressLow, BitVec.extractLsb'_toNat, Nat.shiftRight_zero]

theorem toNat_addressHigh (a : VramAddr) (rd : Direction) :
    (addressHigh a rd).toNat = (if rd = .forRead then 0x00 else 0x40) + a.toNat / 256 := by
  have upper : (a.extractLsb' 8 6).toNat = a.toNat / 256 := by
    rw [BitVec.extractLsb'_toNat, Nat.shiftRight_eq_div_pow]
    omega
  cases rd with
  | forRead =>
    have fits : a.toNat / 256 < 256 := by omega
    simpa [addressHigh, upper] using fits
  | forWrite =>
    have or := toNat_bit_or_setWidth (n := 6) (k := 6) le_rfl (by decide) (a.extractLsb' 8 6)
    rw [upper] at or
    exact or

/-- Settles O22: SET_ADDR is one framing pair, of the two address bytes. -/
theorem setAddrSendsTheAddressPair : Obligations.SetAddrSendsTheAddressPair := by
  intro s a rd
  refine ⟨fun ready => ⟨addressLow a, addressHigh a rd, command_pair ready _ _, toNat_addressLow a,
    toNat_addressHigh a rd⟩, fun quiet fails => ?_⟩
  exact failedGuardIsASilentNoop (.setAddr a rd) s quiet fails

end Sys2Proof.Machine

/-! The frames of a run, whatever lands: the part of the bus they depend on, what a landing and a step of the pseudocode
do to it, and the frames of a whole run as those of its steps (R111, R132, R134, R135). -/

namespace Sys2Proof.Machine

open Sys2Proof.Expected

/-! ## The frames of a piece of trace -/

/-- Whether a pulse of the adapter's is under way after a piece of trace. -/
def pulseAfter : Walk → Bool → List Event → Bool
  | _, begun, [] => begun
  | w, begun, e :: es => pulseAfter (w.after e) (w.pulsing begun e) es

theorem pulseAfter_append (w : Walk) (begun : Bool) (a b : List Event) :
    pulseAfter w begun (a ++ b) = pulseAfter (walkAfter w a) (pulseAfter w begun a) b := by
  induction a generalizing w begun with
  | nil => rfl
  | cons e a ih => exact ih _ _

/-- The frames emitted of two pieces, the second walked from where the first ends. -/
theorem emittedFrom_append (w : Walk) (begun : Bool) (a b : List Event) :
    emittedFrom w begun (a ++ b) = emittedFrom w begun a ++ emittedFrom (walkAfter w a) (pulseAfter w begun a) b := by
  induction a generalizing w begun with
  | nil => rfl
  | cons e a ih =>
    rw [List.cons_append, emittedFrom, emittedFrom, ih]
    split
    · split <;> rfl
    · rfl

/-- Where every asserted write strobe is a pulse of the adapter's own, it emits all that the VDP sees, and so it stays
(R111, R132). -/
theorem framesFrom_eq_emittedFrom (w : Walk) (es : List Event) :
    framesFrom w es = emittedFrom w (!w.ctrl.getLsbD w.idxCsw.toNat) es := by
  induction es generalizing w with
  | nil => rfl
  | cons e es ih =>
    have pulse : w.pulsing (!w.ctrl.getLsbD w.idxCsw.toNat) e = !(w.after e).ctrl.getLsbD (w.after e).idxCsw.toNat := by
      cases e with
      | ctrl v => simp [Walk.pulsing, Walk.after]
      | _ => rfl
    have own (f : Frame) (h : w.frameAt e = some f) : f.kind = .read ∨ (!w.ctrl.getLsbD w.idxCsw.toNat) = true := by
      cases e with
      | ctrl v =>
        simp only [Walk.frameAt, Walk.writeEdge, Option.ite_none_right_eq_some, Bool.and_eq_true] at h
        obtain ⟨⟨⟨-, low⟩, -⟩, -⟩ := h
        exact .inr low
      | sampD b =>
        simp only [Walk.frameAt, Option.ite_none_right_eq_some, Option.some.injEq] at h
        obtain ⟨-, rfl⟩ := h
        exact .inl rfl
      | _ => nomatch h
    rw [framesFrom, emittedFrom, pulse, ← ih]
    cases h : w.frameAt e with
    | none => rfl
    | some f => exact (if_pos (own f h)).symm

/-! ## The part of the bus that frames depend on -/

/-- What the frames of the next events depend on: which of the three lines are asserted, whether the write strobe is
driven, whether a pulse of the adapter's is under way, and DOUT (R132). -/
structure Lines where
  csr : Bool
  csw : Bool
  mode : Bool
  driven : Bool
  begun : Bool
  dout : Byte

/-- A line asserted or deasserted (R123). -/
@[simp] def Lines.drive (f : Lines) (asserted : Bool) : Role → Lines
  | .csr => { f with csr := asserted }
  | .csw => { f with csw := asserted, begun := asserted && (f.begun || !f.csw) }
  | .mode => { f with mode := asserted }
  | .reset => f

/-- The frame that asserting or deasserting a line is, if the adapter emits one: the end of a write pulse of its own
(R111, R132). -/
@[simp] def Lines.edge (f : Lines) (asserted : Bool) : Role → List Frame
  | .csw => if f.driven && f.begun && !asserted then [⟨.write, f.mode, f.dout⟩] else []
  | _ => []

/-- The lines after a step of the pseudocode; `b` is the byte it holds. -/
@[simp] def Lines.after (f : Lines) (b : Byte) : MicroOp → Lines
  | .assertLine role => f.drive true role
  | .deassertLine role => f.drive false role
  | .putData v => { f with dout := v }
  | .putHeld => { f with dout := b }
  | .rolesOutput => { f with driven := true }
  | _ => f

/-- The frame a step of the pseudocode is, if the adapter emits one; `b` is the byte it samples (R111, R132). -/
@[simp] def Lines.frame (f : Lines) (b : Byte) : MicroOp → List Frame
  | .assertLine role => f.edge true role
  | .deassertLine role => f.edge false role
  | .sampleData => if f.csr then [⟨.read, f.mode, b⟩] else []
  | _ => []

/-- The lines of a state whose pins have their roles. -/
structure LinesOf (f : Lines) (u : State) : Prop where
  configured : u.configured = true
  pins : PinsWf u
  csr : u.ctrlOut.getLsbD u.idxCsr.toNat = !f.csr
  csw : u.ctrlOut.getLsbD u.idxCsw.toNat = !f.csw
  mode : u.walk.modeAsserted u.ctrlOut = f.mode
  driven : u.ctrlDir.getLsbD u.idxCsw.toNat = f.driven
  dout : u.dout = f.dout
  own : f.begun = true → f.csw = true

/-- The lines are a matter of the pins and of where the walk stands. -/
theorem LinesOf.of_walk {f : Lines} {s t : State} (h : LinesOf f s) (pins : PinsWf t) (e : t.walk = s.walk) :
    LinesOf f t where
  configured := (congrArg Walk.configured e).trans h.configured
  pins := pins
  csr := (congrArg (fun w => w.ctrl.getLsbD w.idxCsr.toNat) e).trans h.csr
  csw := (congrArg (fun w => w.ctrl.getLsbD w.idxCsw.toNat) e).trans h.csw
  mode := (congrArg (fun w => w.modeAsserted w.ctrl) e).trans h.mode
  driven := (congrArg (fun w => w.dir.getLsbD w.idxCsw.toNat) e).trans h.driven
  dout := (congrArg Walk.dout e).trans h.dout
  own := h.own

/-- From `s` with the lines `f` a run comes to `t` with the lines `g`, and the adapter emits `fs`. -/
def Emits (f : Lines) (s : State) (fs : List Frame) (g : Lines) (t : State) : Prop :=
  LinesOf g t ∧ ∃ es, t.trace = es.reverse ++ s.trace ∧ t.walk = walkAfter s.walk es ∧
    pulseAfter s.walk f.begun es = g.begun ∧ emittedFrom s.walk f.begun es = fs

theorem Emits.trans {f g h : Lines} {s t u : State} {fs gs : List Frame} (a : Emits f s fs g t) (b : Emits g t gs h u) :
    Emits f s (fs ++ gs) h u := by
  obtain ⟨-, es, trace, walk, pulse, rfl⟩ := a
  obtain ⟨lines, es', trace', walk', pulse', rfl⟩ := b
  rw [walk, ← pulse] at pulse' ⊢
  rw [walk] at walk'
  exact ⟨lines, es ++ es', by rw [trace', trace]; simp, by rw [walk', walkAfter_append],
    by rw [pulseAfter_append, pulse'], emittedFrom_append _ _ _ _⟩

/-- Nothing happens on the bus. -/
theorem LinesOf.still {f : Lines} {s t : State} (h : LinesOf f s) (pins : PinsWf t) (trace : t.trace = s.trace)
    (walk : t.walk = s.walk) : Emits f s [] f t :=
  ⟨h.of_walk pins walk, [], trace, walk, rfl, rfl⟩

/-- One event. -/
theorem LinesOf.event {f g : Lines} {s t : State} {e : Event} (lines : LinesOf g t) (trace : t.trace = e :: s.trace)
    (walk : t.walk = s.walk.after e) (pulse : s.walk.pulsing f.begun e = g.begun) :
    Emits f s (emittedFrom s.walk f.begun [e]) g t :=
  ⟨lines, [e], trace, walk, pulse, rfl⟩

/-- An event that moves no line, and is no frame. -/
theorem LinesOf.silent {f : Lines} {s t : State} (h : LinesOf f s) (pins : PinsWf t) {e : Event}
    (trace : t.trace = e :: s.trace) (walk : t.walk = s.walk) (after : s.walk.after e = s.walk)
    (frame : s.walk.frameAt e = none) (pulse : s.walk.pulsing f.begun e = f.begun) : Emits f s [] f t := by
  have emits := (h.of_walk pins walk).event trace (walk.trans after.symm) pulse
  rwa [emittedFrom, frame] at emits

/-- A write of the control port. -/
theorem LinesOf.writeCtrl {f : Lines} {u : State} (h : LinesOf f u) (v : Byte) {g : Lines}
    (csr : v.getLsbD u.idxCsr.toNat = !g.csr) (csw : v.getLsbD u.idxCsw.toNat = !g.csw)
    (mode : u.walk.modeAsserted v = g.mode) (driven : f.driven = g.driven) (dout : f.dout = g.dout)
    (begun : g.begun = (g.csw && (f.begun || !f.csw))) :
    Emits f u (if f.driven && f.begun && !g.csw then [⟨.write, g.mode, g.dout⟩] else []) g (writeCtrl v u) := by
  have lines : LinesOf g (Machine.writeCtrl v u) :=
    { configured := h.configured, pins := h.pins.of_eq rfl rfl rfl rfl rfl, csr, csw, mode
      driven := h.driven.trans driven, dout := h.dout.trans dout
      own := fun hb => by rw [begun, Bool.and_eq_true] at hb; exact hb.1 }
  have pulse : u.walk.pulsing f.begun (.ctrl v) = g.begun := by
    rw [begun, Walk.pulsing]
    change (!v.getLsbD u.idxCsw.toNat && (f.begun || u.ctrlOut.getLsbD u.idxCsw.toNat)) = _
    rw [csw, h.csw, Bool.not_not]
  have edge : u.walk.writeEdge v = (f.driven && f.csw && !g.csw) := by
    change ((u.configured && u.ctrlDir.getLsbD u.idxCsw.toNat) && !u.ctrlOut.getLsbD u.idxCsw.toNat &&
      v.getLsbD u.idxCsw.toNat) = _
    rw [h.configured, h.driven, h.csw, csw, Bool.true_and, Bool.not_not]
  have emits := lines.event (s := u) (e := .ctrl v) rfl rfl pulse
  have frame : emittedFrom u.walk f.begun [.ctrl v] =
      if f.driven && f.begun && !g.csw then [⟨.write, g.mode, g.dout⟩] else [] := by
    have byte : u.walk.dout = g.dout := h.dout.trans dout
    rw [emittedFrom, Walk.frameAt, edge, mode, byte]
    cases hb : f.begun with
    | false =>
      rw [Bool.and_false, Bool.false_and]
      cases f.driven && f.csw && !g.csw <;> rfl
    | true =>
      rw [h.own hb, Bool.and_true]
      cases f.driven && !g.csw <;> rfl
  rwa [frame] at emits

/-- A pulse of the adapter's does not end, nor begin, while the write strobe keeps its level. -/
theorem LinesOf.pulse_kept {f : Lines} {u : State} (h : LinesOf f u) :
    (f.driven && f.begun && !f.csw) = false ∧ f.begun = (f.csw && (f.begun || !f.csw)) := by
  cases hb : f.begun with
  | false => cases f.driven <;> cases f.csw <;> decide
  | true => rw [h.own hb]; cases f.driven <;> decide

/-- `Assert(role)` and `Deassert(role)` (R123). -/
theorem LinesOf.driveLine {f : Lines} {u : State} (h : LinesOf f u) (role : Role) (asserted : Bool) :
    Emits f u (f.edge asserted role) (f.drive asserted role)
      (driveLine role (assertLevel u.params role == asserted) u) := by
  obtain ⟨quiet, begun⟩ := h.pulse_kept
  have keep {j k : Nat} (hj : j < 8) (ne : j ≠ k) (level : Bool) :
      (withBit u.ctrlOut k level).getLsbD j = u.ctrlOut.getLsbD j := getLsbD_withBit_other _ _ hj ne
  have keepMode {k : Nat} (ne : u.idxMode.toNat ≠ k) (level : Bool) :
      u.walk.modeAsserted (withBit u.ctrlOut k level) = f.mode := by
    rw [← h.mode]
    exact congrArg (· == u.params.modeAssertLevel) (keep h.pins.mode ne level)
  have pins := h.pins
  cases role with
  | csr =>
    have emits := h.writeCtrl (g := f.drive asserted .csr) (withBit u.ctrlOut u.idxCsr.toNat (false == asserted))
      (by rw [getLsbD_withBit_same _ _ pins.csr]; cases asserted <;> rfl)
      ((keep pins.csw (toNat_ne pins.csrCsw).symm _).trans h.csw) (keepMode (toNat_ne pins.csrMode).symm _)
      rfl rfl begun
    rwa [Lines.drive, quiet] at emits
  | csw =>
    exact h.writeCtrl (g := f.drive asserted .csw) (withBit u.ctrlOut u.idxCsw.toNat (false == asserted))
      ((keep pins.csr (toNat_ne pins.csrCsw) _).trans h.csr)
      (by rw [getLsbD_withBit_same _ _ pins.csw]; cases asserted <;> rfl) (keepMode (toNat_ne pins.cswMode).symm _)
      rfl rfl rfl
  | mode =>
    have level : u.walk.modeAsserted (withBit u.ctrlOut u.idxMode.toNat (u.params.modeAssertLevel == asserted)) =
        asserted := by
      refine (congrArg (· == u.params.modeAssertLevel) (getLsbD_withBit_same _ _ pins.mode)).trans ?_
      cases asserted <;> cases u.params.modeAssertLevel <;> rfl
    have emits := h.writeCtrl (g := f.drive asserted .mode)
      (withBit u.ctrlOut u.idxMode.toNat (u.params.modeAssertLevel == asserted))
      ((keep pins.csr (toNat_ne pins.csrMode) _).trans h.csr) ((keep pins.csw (toNat_ne pins.cswMode) _).trans h.csw)
      level rfl rfl begun
    rwa [Lines.drive, quiet] at emits
  | reset =>
    have emits := h.writeCtrl (g := f) (withBit u.ctrlOut u.idxReset.toNat ((!u.params.resetActiveLow) == asserted))
      ((keep pins.csr (toNat_ne pins.csrReset) _).trans h.csr) ((keep pins.csw (toNat_ne pins.cswReset) _).trans h.csw)
      (keepMode (toNat_ne pins.modeReset) _) rfl rfl begun
    rwa [quiet] at emits

/-- What lands is no frame, and moves no line (R134, R135, R325). -/
theorem LinesOf.landInput {f : Lines} {u : State} (h : LinesOf f u) {i : Input} (hi : i ≠ .arst true) :
    Emits f u [] f (landInput i u) := by
  obtain ⟨quiet, begun⟩ := h.pulse_kept
  have still : Emits f u [] f u := h.still h.pins rfl rfl
  have owned (r mask val : Byte) {j : Nat} (hj : j < 8) (role : IsRole u j) :
      (maskedWrite r (u.hostWritable mask) val).getLsbD j = r.getLsbD j := by
    rw [getLsbD_maskedWrite _ _ _ _ hj]
    simp [State.hostWritable, roleMask_role u h.configured j hj role]
  have pins : PinsWf (Machine.landInput i u) := by
    obtain ⟨-, -, -, -, -, -, -, -, csr, csw, mode, reset, int, -⟩ := landInput_keeps u hi
    exact h.pins.of_eq csr csw mode reset int
  cases i with
  | arst b => cases b <;> [exact h.still pins rfl rfl; exact absurd rfl hi]
  | ctrlWrite mask val =>
    simp only [Machine.landInput]
    split
    · exact still
    · have emits := h.writeCtrl (g := f) (maskedWrite u.ctrlOut (u.hostWritable mask) val)
        ((owned _ _ _ h.pins.csr (.inl rfl)).trans h.csr) ((owned _ _ _ h.pins.csw (.inr (.inl rfl))).trans h.csw)
        ((congrArg (· == u.params.modeAssertLevel) (owned _ _ _ h.pins.mode (.inr (.inr (.inl rfl))))).trans h.mode)
        rfl rfl begun
      rwa [quiet] at emits
  | ctrlDirWrite mask val =>
    simp only [Machine.landInput] at pins ⊢
    split
    · exact still
    next released =>
      rw [if_neg released] at pins
      have lines : LinesOf f (hostCtrlDirWrite mask val u) :=
        { h with pins, driven := (owned _ _ _ h.pins.csw (.inr (.inl rfl))).trans h.driven }
      exact lines.event (s := u) (e := .ctrlDir _) rfl rfl rfl
  | command w =>
    simp only [Machine.landInput, dropCommand] at pins ⊢
    split
    · exact still
    · exact h.still (h.pins.of_bus rfl) rfl rfl
  | _ => exact h.still pins rfl rfl

/-- The next step of a command that gives no pin a role. -/
theorem LinesOf.perform {f : Lines} {u : State} (h : LinesOf f u) {op : MicroOp} (hop : .pins ∉ op.parts) :
    ∃ b, Emits f u (f.frame b op) (f.after b op) (perform op u) := by
  have pins : PinsWf (Machine.perform op u) := by
    obtain ⟨-, csr, csw, mode, reset, int, -⟩ := (agree_perform hop u).pins
    exact h.pins.of_eq csr csw mode reset int
  cases op with
  | assertLine role =>
    have emits := h.driveLine role true
    rw [beq_true] at emits
    exact ⟨0, emits⟩
  | deassertLine role =>
    have emits := h.driveLine role false
    rw [beq_false] at emits
    exact ⟨0, emits⟩
  | putData v => exact ⟨0, LinesOf.event (e := .data v) { h with pins, dout := rfl } rfl rfl rfl⟩
  | putHeld => exact ⟨u.latch, LinesOf.event (e := .data u.latch) { h with pins, dout := rfl } rfl rfl rfl⟩
  | setDir d => exact ⟨0, h.silent pins (e := .ddir d) rfl rfl rfl rfl rfl⟩
  | restoreDir => exact ⟨0, h.silent pins (e := .ddir u.savedDdir) rfl rfl rfl rfl rfl⟩
  | sampleData =>
    refine ⟨dinByte u, ?_⟩
    have emits := (h.of_walk pins rfl).event (s := u) (f := f) (e := .sampD (dinByte u)) rfl rfl rfl
    have strobed : u.walk.readStrobed = f.csr := by
      change (!u.ctrlOut.getLsbD u.idxCsr.toNat) = f.csr
      rw [h.csr, Bool.not_not]
    have mode : u.walk.modeAsserted u.walk.ctrl = f.mode := h.mode
    have frame : emittedFrom u.walk f.begun [.sampD (dinByte u)] =
        if f.csr then [⟨.read, f.mode, dinByte u⟩] else [] := by
      rw [emittedFrom, Walk.frameAt, strobed, mode]
      cases f.csr <;> rfl
    rwa [frame] at emits
  | windowWait => exact ⟨0, h.silent pins (e := .sampI (intLevel u)) rfl rfl rfl rfl rfl⟩
  | delay => exact ⟨0, h.silent pins (e := .delay u.params.delay) rfl rfl rfl rfl rfl⟩
  | hostRead a m => exact ⟨0, h.silent pins (e := .hrd _ _) rfl rfl rfl rfl rfl⟩
  | hostWrite a m => exact ⟨0, h.silent pins (e := .hwr _ _) rfl rfl rfl rfl rfl⟩
  | intInput => exact ⟨0, h.silent pins (e := .intDir _) rfl rfl rfl rfl rfl⟩
  | rolesOutput =>
    have driven : (u.ctrlDir ||| u.roleMask).getLsbD u.idxCsw.toNat = true := by
      rw [BitVec.getLsbD_or, roleMask_role u h.configured _ h.pins.csw (.inr (.inl rfl)), Bool.or_true]
    exact ⟨0, LinesOf.event (e := .ctrlDir _) { h with pins, driven } rfl rfl rfl⟩
  | setPin | setVariant | setBlankPol | setShared | setConfigured => simp [MicroOp.parts] at hop
  | _ => exact ⟨0, h.still pins rfl rfl⟩

/-! ## The frames of a run -/

/-- `Shows ops f fs g`: steps `ops` from the lines `f`, to their end with the lines `g` or into a window wait, with
whatever bytes the adapter holds or samples, are the frames `fs`. -/
inductive Shows : List MicroOp → Lines → List Frame → Lines → Prop
  | nil (f : Lines) : Shows [] f [] f
  | wait (rest : List MicroOp) (f : Lines) : Shows (.windowWait :: rest) f [] f
  | cons {op : MicroOp} {ops : List MicroOp} {f : Lines} (b : Byte) {fs : List Frame} {g : Lines}
      (h : Shows ops (f.after b op) fs g) : Shows (op :: ops) f (f.frame b op ++ fs) g

/-- Whatever lands, a run that reset does not end shows the frames of its steps (R111, R301). -/
theorem shows_runOps {f : Lines} {s : State} (h : LinesOf f s) (ha : s.arst = false) {ops : List MicroOp}
    (hops : ∀ op ∈ ops, .pins ∉ op.parts) :
    runOps ops s = heldInReset (runOps ops s) ∨ ∃ fs g, Shows ops f fs g ∧ Emits f s fs g (runOps ops s) := by
  refine runOps_induct
    (P := fun rest u => (∀ op ∈ rest, .pins ∉ op.parts) ∧
      ∃ fs g, Emits f s fs g u ∧ ∀ fs' g', Shows rest g fs' g' → Shows ops f (fs ++ fs') g')
    (Q := fun t => t = heldInReset t ∨ ∃ fs g, Shows ops f fs g ∧ Emits f s fs g t)
    ?land ?inputs ?reset ?step ?done ?wait ops s ⟨hops, [], f, h.still h.pins rfl rfl, fun _ _ => id⟩ ha
  case land =>
    rintro rest i u ⟨fixed, fs, g, emits, goOn⟩ - hi
    have landed := emits.trans (emits.1.landInput hi)
    rw [List.append_nil] at landed
    exact ⟨fixed, fs, g, landed, goOn⟩
  case inputs =>
    rintro rest u l ⟨fixed, fs, g, ⟨lines, run⟩, goOn⟩
    exact ⟨fixed, fs, g, ⟨lines.of_walk (lines.pins.of_bus rfl) rfl, run⟩, goOn⟩
  case reset => exact fun _ _ _ _ => .inl rfl
  case step =>
    rintro op rest u ⟨fixed, fs, g, emits, goOn⟩ - -
    obtain ⟨hop, fixed⟩ := List.forall_mem_cons.mp fixed
    obtain ⟨b, next⟩ := emits.1.perform hop
    refine ⟨fixed, _, _, emits.trans next, fun fs' g' more => ?_⟩
    rw [List.append_assoc]
    exact goOn _ _ (.cons b more)
  case done =>
    rintro u ⟨-, fs, g, ⟨lines, run⟩, goOn⟩ -
    have all := goOn _ _ (.nil g)
    rw [List.append_nil] at all
    exact .inr ⟨fs, g, all, lines.of_walk (lines.pins.of_bus rfl) rfl, run⟩
  case wait =>
    rintro rest u ⟨-, fs, g, emits, goOn⟩ - -
    have all := goOn _ _ (.wait rest g)
    rw [List.append_nil] at all
    obtain ⟨b, lines, run⟩ := emits.1.perform (op := .windowWait) (by simp [MicroOp.parts])
    have poll : Emits f s (fs ++ []) g (pollInt u) := emits.trans ⟨lines, run⟩
    rw [List.append_nil] at poll
    obtain ⟨lines, run⟩ := poll
    exact .inr ⟨fs, g, all, lines.of_walk (lines.pins.of_bus rfl) rfl, run⟩

/-- Where the walk along the new events of a run starts with `f.begun`, the frames emitted are those of the run. -/
theorem Emits.emittedFrom_eq {f g : Lines} {s t : State} {fs : List Frame} (h : Emits f s fs g t) :
    emittedFrom s.walk f.begun (newEvents s t) = fs := by
  obtain ⟨-, es, trace, -, -, frames⟩ := h
  rw [newEvents_eq es trace, frames]

/-- After reset there are no new events (R301). -/
theorem newEvents_of_held (s : State) {t : State} (h : t = heldInReset t) : newEvents s t = [] := by
  have trace : t.trace = [] := congrArg State.trace h
  rw [newEvents, trace, List.take_nil]
  rfl

@[simp] theorem shows_cons {op : MicroOp} (hop : op ≠ .windowWait) {ops : List MicroOp} {f g : Lines}
    {fs : List Frame} :
    Shows (op :: ops) f fs g ↔ ∃ b fs', Shows ops (f.after b op) fs' g ∧ fs = f.frame b op ++ fs' := by
  constructor
  · rintro (_ | _ | ⟨b, h⟩)
    · exact absurd rfl hop
    · exact ⟨b, _, h, rfl⟩
  · rintro ⟨b, fs', h, rfl⟩
    exact .cons b h

@[simp] theorem shows_nil {f g : Lines} {fs : List Frame} : Shows [] f fs g ↔ g = f ∧ fs = [] := by
  constructor
  · rintro ⟨⟩
    exact ⟨rfl, rfl⟩
  · rintro ⟨rfl, rfl⟩
    exact .nil _

/-- The frames of two lists of steps, the first without a window wait. -/
theorem Shows.append {a b : List MicroOp} (hw : .windowWait ∉ a) {f g : Lines} {fs : List Frame}
    (h : Shows (a ++ b) f fs g) : ∃ fs₁ f' fs₂, Shows a f fs₁ f' ∧ Shows b f' fs₂ g ∧ fs = fs₁ ++ fs₂ := by
  induction a generalizing f fs with
  | nil => exact ⟨[], f, fs, .nil f, h, rfl⟩
  | cons op a ih =>
    obtain ⟨hop, hw⟩ := not_or.mp (mt List.mem_cons.mpr hw)
    obtain ⟨c, fs', rest, rfl⟩ := (shows_cons (Ne.symm hop)).mp h
    obtain ⟨fs₁, f', fs₂, front, back, rfl⟩ := ih hw rest
    exact ⟨_, f', fs₂, .cons c front, back, (List.append_assoc _ _ _).symm⟩

/-- Steps that touch nothing of the bus show nothing. -/
theorem Shows.of_silent {ops : List MicroOp} (silent : ∀ op ∈ ops, .bus ∉ op.parts) {f g : Lines} {fs : List Frame}
    (h : Shows ops f fs g) : fs = [] ∧ g = f := by
  induction h with
  | nil | wait => exact ⟨rfl, rfl⟩
  | @cons op ops f b fs g h ih =>
    obtain ⟨hop, rest⟩ := List.forall_mem_cons.mp silent
    obtain ⟨rfl, rfl⟩ := ih rest
    cases op with
    | assertLine | deassertLine | putData | putHeld | sampleData | rolesOutput => simp [MicroOp.parts] at hop
    | _ => exact ⟨rfl, rfl⟩

end Sys2Proof.Machine

/-! The frames the adapter emits: data frames, framing pairs and one last status frame for every command, and none
before the ports are initialised (R96, R97, R111, R132). -/

namespace Sys2Proof.Machine

open Sys2Proof.Expected

/-! ## Frames the adapter may emit -/

/-- Data frames, and framing pairs whose second byte is a register tag or an upper address byte (R96, R97, R111). -/
inductive Sent : List Frame → Prop
  | nil : Sent []
  | data (kind : FrameKind) (b : Byte) {fs : List Frame} (h : Sent fs) : Sent (⟨kind, false, b⟩ :: fs)
  | pair (b1 : Byte) {b2 : Byte} (tag : b2.toNat < 0x88) {fs : List Frame} (h : Sent fs) :
      Sent (⟨.write, true, b1⟩ :: ⟨.write, true, b2⟩ :: fs)

theorem Sent.append {a b : List Frame} (ha : Sent a) (hb : Sent b) : Sent (a ++ b) := by
  induction ha with
  | nil => exact hb
  | data kind byte _ ih => exact .data kind byte ih
  | pair b1 tag _ ih => exact .pair b1 tag ih

/-- A data frame before legal frames. -/
theorem legalFrames_data (kind : FrameKind) (b : Byte) {fs : List Frame} (h : LegalFrames fs) :
    LegalFrames (⟨kind, false, b⟩ :: fs) := by
  obtain ⟨framed, last⟩ := h
  cases fs with
  | nil => cases kind <;> exact ⟨rfl, rfl⟩
  | cons f fs => cases kind <;> exact ⟨framed, last⟩

/-- A framing pair before legal frames. -/
theorem legalFrames_pair (b1 : Byte) {b2 : Byte} (tag : b2.toNat < 0x88) {fs : List Frame} (h : LegalFrames fs) :
    LegalFrames (⟨.write, true, b1⟩ :: ⟨.write, true, b2⟩ :: fs) := by
  obtain ⟨framed, last⟩ := h
  refine ⟨Bool.and_eq_true_iff.mpr ⟨decide_eq_true tag, framed⟩, ?_⟩
  cases fs with
  | nil => rfl
  | cons f fs => exact last

/-- Such frames before legal ones: nothing, or a status frame (R111). -/
theorem Sent.legal_append {fs tail : List Frame} (h : Sent fs) (legal : LegalFrames tail) :
    LegalFrames (fs ++ tail) := by
  induction h with
  | nil => exact legal
  | data kind b _ ih => exact legalFrames_data kind b ih
  | pair b1 tag _ ih => exact legalFrames_pair b1 tag ih

theorem legalFrames_nil : LegalFrames [] := ⟨rfl, rfl⟩

/-! ## What the steps of commands send -/

/-- The lines of the idle bus (R139). -/
@[simp] def Lines.idle (dout : Byte) : Lines := ⟨false, false, false, true, false, dout⟩

/-- From the idle bus the steps send data frames and framing pairs, and they end on the idle bus. -/
structure Sends (ops : List MicroOp) : Prop where
  noWait : .windowWait ∉ ops
  sent : ∀ {d fs g}, Shows ops (.idle d) fs g → Sent fs ∧ ∃ d', g = .idle d'

theorem Sends.silent {ops : List MicroOp} (h : ∀ op ∈ ops, .bus ∉ op.parts) : Sends ops where
  noWait hw := h _ hw (by simp [MicroOp.parts])
  sent shows := by
    obtain ⟨rfl, rfl⟩ := shows.of_silent h
    exact ⟨.nil, _, rfl⟩

theorem Sends.append {a b : List MicroOp} (ha : Sends a) (hb : Sends b) : Sends (a ++ b) where
  noWait hw := (List.mem_append.mp hw).elim ha.noWait hb.noWait
  sent shows := by
    obtain ⟨fs₁, f', fs₂, front, back, rfl⟩ := shows.append ha.noWait
    obtain ⟨sent₁, d, rfl⟩ := ha.sent front
    obtain ⟨sent₂, idle⟩ := hb.sent back
    exact ⟨sent₁.append sent₂, idle⟩

theorem Sends.flatMap {α : Type} {f : α → List MicroOp} (h : ∀ x, Sends (f x)) (l : List α) : Sends (l.flatMap f) := by
  induction l with
  | nil => exact .silent nofun
  | cons x l ih => exact (h x).append ih

theorem Sends.elim {α : Type} {f : α → List MicroOp} (h : ∀ x, Sends (f x)) (o : Option α) : Sends (o.elim [] f) := by
  cases o with
  | none => exact .silent nofun
  | some x => exact h x

/-- A framing pair (R138). -/
theorem sends_frame2 (variant : SeqVariant) (b1 : Byte) {b2 : Byte} (tag : b2.toNat < 0x88) :
    Sends (frame2 variant b1 b2) where
  noWait := windowWait_not_mem_frame2 variant b1 b2
  sent {d fs g} shows := by
    have pair : fs = [⟨.write, true, b1⟩, ⟨.write, true, b2⟩] ∧ g = .idle b2 := by
      cases variant <;>
        simpa [frame2, writePulse, and_comm] using shows
    obtain ⟨rfl, rfl⟩ := pair
    exact ⟨.pair b1 tag .nil, _, rfl⟩

/-- The byte of a write burst (R194). -/
theorem sends_writeByte (h m : BitVec 16) : Sends (writeByte h m) where
  noWait := windowWait_not_mem_writeByte h m
  sent {d fs g} shows := by
    obtain ⟨b, rfl, rfl⟩ : ∃ b, fs = [⟨.write, false, b⟩] ∧ g = .idle b := by
      simpa [writeByte, and_comm] using shows
    exact ⟨.data .write b .nil, _, rfl⟩

/-- The byte of a read burst (R195). -/
theorem sends_readByte (h m : BitVec 16) : Sends (readByte h m) where
  noWait := windowWait_not_mem_readByte h m
  sent {d fs g} shows := by
    obtain ⟨b, rfl, rfl⟩ : ∃ b, fs = [⟨.read, false, b⟩] ∧ g = .idle d := by
      simpa [readByte, readPulse, and_comm] using shows
    exact ⟨.data .read b .nil, _, rfl⟩

/-- INIT_PORTS on the idle bus (R137). -/
theorem sends_initPortsOps : Sends initPortsOps where
  noWait := by simp [initPortsOps]
  sent {d fs g} shows := by
    have quiet : fs = [] ∧ g = .idle d := by
      simpa [initPortsOps, and_comm] using shows
    obtain ⟨rfl, rfl⟩ := quiet
    exact ⟨.nil, _, rfl⟩

/-- A status read is one status frame (R230). -/
theorem Shows.statusRead {variant : SeqVariant} {d : Byte} {fs : List Frame} {g : Lines}
    (h : Shows (statusRead variant) (.idle d) fs g) : (∃ b, fs = [⟨.read, true, b⟩]) ∧ g = .idle d := by
  cases variant <;> simpa [Machine.statusRead, readPulse, and_comm] using h

/-- From the idle bus the steps show frames the adapter may emit, to their end or into a window wait. -/
def LegalSteps (ops : List MicroOp) : Prop := ∀ d fs g, Shows ops (.idle d) fs g → LegalFrames fs

theorem Sends.legal {ops : List MicroOp} (h : Sends ops) : LegalSteps ops := by
  intro d fs g shows
  have legal := (h.sent shows).1.legal_append legalFrames_nil
  rwa [List.append_nil] at legal

/-- A status read between what is sent and what touches no bus (R199, R231). -/
theorem Sends.legal_statusRead {a b : List MicroOp} (ha : Sends a) (variant : SeqVariant)
    (hb : ∀ op ∈ b, .bus ∉ op.parts) : LegalSteps (a ++ (statusRead variant ++ b)) := by
  intro d fs g shows
  obtain ⟨fs₁, f', rest, front, shows, rfl⟩ := shows.append ha.noWait
  obtain ⟨sent, d', rfl⟩ := ha.sent front
  obtain ⟨fs₂, f'', fs₃, read, silent, rfl⟩ := shows.append (windowWait_not_mem_statusRead variant)
  obtain ⟨⟨byte, rfl⟩, -⟩ := read.statusRead
  obtain ⟨rfl, -⟩ := silent.of_silent hb
  exact sent.legal_append ⟨rfl, rfl⟩

/-- Before them a step that moves no line and is no frame, a window wait among others. -/
theorem LegalSteps.cons {op : MicroOp} {ops : List MicroOp} (h : LegalSteps ops)
    (quiet : ∀ (f : Lines) b, f.frame b op = [] ∧ f.after b op = f) : LegalSteps (op :: ops) := by
  intro d fs g shows
  cases shows with
  | wait => exact legalFrames_nil
  | cons b rest =>
    obtain ⟨frame, after⟩ := quiet (.idle d) b
    rw [after] at rest
    rw [frame]
    exact h _ _ _ rest

/-- The byte loop of a burst (R194, R195). -/
theorem sends_byteLoop (paced : Bool) {byte : List MicroOp} (h : Sends byte) (n : Nat) :
    Sends (byteLoop paced byte n) := by
  refine .flatMap (fun k => .append (a := [.setIndex _]) (.silent (by simp [MicroOp.parts])) (.append ?_ h)) _
  refine ⟨by split <;> simp, fun {d fs g} shows => ?_⟩
  have quiet : fs = [] ∧ g = .idle d := by
    split at shows <;> simpa [and_comm] using shows
  obtain ⟨rfl, rfl⟩ := quiet
  exact ⟨.nil, _, rfl⟩

/-- A burst: its bytes, then the status read (R194, R195, R199). -/
theorem legalSteps_burst {byte : List MicroOp} (h : Sends byte) (variant : SeqVariant) (paced : Bool)
    (n l : BitVec 16) : LegalSteps (burstOps variant paced n l byte ++ [.finish .count]) := by
  have bytes : Sends ([.setCount n] ++ byteLoop paced byte n.toNat) :=
    (Sends.silent (by simp [MicroOp.parts])).append (sends_byteLoop paced h n.toNat)
  have steps := bytes.legal_statusRead variant (b := [.latchStatus, .setPartial l, .setPaced, .finish .count])
    (by simp [MicroOp.parts])
  simpa [burstOps] using steps

/-- A bulk command in its window wait (R193). -/
theorem legalSteps_waitingOps {byte : List MicroOp} (h : Sends byte) (s : State) (l : BitVec 16) :
    LegalSteps (waitingOps s l byte) :=
  (legalSteps_burst h _ _ _ _).cons fun _ _ => ⟨rfl, rfl⟩

/-- A bulk command from its start (R190, R193). -/
theorem legalSteps_bulkOps {byte : List MicroOp} (h : Sends byte) (s : State) (l : BitVec 16) :
    LegalSteps (bulkOps s l byte ++ [.finish .count]) := by
  cases hg : gate s with
  | false =>
    have steps := (legalSteps_burst h s.seqVariant false (effectiveCount s.params false l) l).cons
      (op := .setPace false) fun _ _ => ⟨rfl, rfl⟩
    simpa [bulkOps, hg, windowWait] using steps
  | true =>
    rw [bulkOps_paced hg]
    exact ((legalSteps_waitingOps h s l).cons fun _ _ => ⟨rfl, rfl⟩).cons fun _ _ => ⟨rfl, rfl⟩

/-- A register write (R96, R160). -/
theorem sends_programRegister (variant : SeqVariant) (i : BitVec 3) (v : Byte) :
    Sends (programRegister variant i v) := by
  have tag : (tagByte i).toNat = 2 ^ 7 + i.toNat := toNat_bit_or_setWidth (k := 7) (by decide) (by decide) i
  exact sends_frame2 variant v (by omega)

/-- An address set-up (R97, R150). -/
theorem sends_addressLatch (variant : SeqVariant) (a : VramAddr) (rd : Direction) :
    Sends (addressLatch variant a rd) := by
  have high := toNat_addressHigh a rd
  refine sends_frame2 variant _ ?_
  split at high <;> omega

theorem sends_applyMode (c : Params) (variant : SeqVariant) (m : Mode) (r1 colour : Byte) (b : TableBases) :
    Sends (applyMode c variant m r1 colour b) :=
  .append (.flatMap (fun _ => sends_programRegister _ _ _) _) (.silent (by simp [MicroOp.parts]))

theorem sends_r1SetterOps (s : State) (v : Byte) : Sends (r1SetterOps s v) :=
  .append (.silent (by simp [MicroOp.parts])) (sends_programRegister _ _ _)

theorem sends_colourSetterOps (s : State) (v : Byte) : Sends (colourSetterOps s v) :=
  .append (.silent (by simp [MicroOp.parts])) (sends_programRegister _ _ _)

/-- The body of a command and its `finish`. -/
theorem legalSteps_body (s : State) (i : Instr) : LegalSteps (bodyOf s i ++ [.finish (resultOf i)]) := by
  have finishes {ops : List MicroOp} (r : ResultSource) (h : Sends ops) : LegalSteps (ops ++ [.finish r]) :=
    (h.append (.silent (by simp [MicroOp.parts]))).legal
  have silent (h : .bus ∉ partsOf i) : Sends (bodyOf s i) := .silent ((within_bodyOf s i).not_mem h)
  cases i with
  | nop | cfgPins | setTableBase | clearFlags => exact finishes _ (silent (by simp [partsOf]))
  | initPorts => exact finishes _ sends_initPortsOps
  | initDevice md flags txt bg =>
    refine finishes _ (.elim (fun m => .append (.silent ?_) (sends_applyMode _ _ _ _ _ _)) _)
    simp [MicroOp.parts]
  | setMode md => exact finishes _ (.elim (fun m => sends_applyMode _ _ _ _ _ _) _)
  | setBlank | setIrqEnable | setSpriteSize | setSpriteMag => exact finishes _ (sends_r1SetterOps _ _)
  | setTextColor | setBgColor => exact finishes _ (sends_colourSetterOps _ _)
  | setRegRaw idx val => exact finishes _ (.elim (fun _ => sends_programRegister _ _ _) _)
  | setAddr a rd => exact finishes _ (sends_addressLatch _ _ _)
  | bulkWrite h l m => exact legalSteps_bulkOps (sends_writeByte h m) s l
  | bulkRead h l m => exact legalSteps_bulkOps (sends_readByte h m) s l
  | readStatus =>
    have steps : bodyOf s .readStatus ++ [.finish (resultOf .readStatus)] =
        [] ++ (statusRead s.seqVariant ++ [.latchStatus, .finish .status]) := List.append_assoc _ _ _
    rw [steps]
    exact (Sends.silent (ops := []) nofun).legal_statusRead s.seqVariant (by simp [MicroOp.parts])

/-- The steps of every command (R111). -/
theorem legalSteps_stepsOf (s : State) (i : Instr) : LegalSteps (stepsOf s i) := by
  unfold stepsOf
  split
  · exact legalSteps_body s i
  · exact (Sends.silent (by cases isBulk i <;> simp [MicroOp.parts])).legal

/-- The steps a word starts. -/
theorem legalSteps_acceptedSteps (w : CommandWord) (s : State) : LegalSteps (acceptedSteps w s) := by
  obtain ⟨i, -, steps, -⟩ | illegal := within_acceptedSteps w s
  · rw [steps]
    exact legalSteps_stepsOf s i
  · rw [illegal]
    exact (Sends.silent (by simp [MicroOp.parts])).legal

/-- The steps left of a command in its window wait. -/
theorem MachineInv.legalSteps_todo {s : State} (h : MachineInv s) (busy : s.busy = true) : LegalSteps s.todo := by
  cases h.position with
  | idle idle => exact absurd (idle.symm.trans busy) Bool.false_ne_true
  | waitingWrite base l m _ _ _ _ _ todo => rw [todo]; exact legalSteps_waitingOps (sends_writeByte base m) s l
  | waitingRead base l m _ _ _ _ _ todo => rw [todo]; exact legalSteps_waitingOps (sends_readByte base m) s l

/-! ## The frames of a command -/

/-- The lines of a state, with a pulse of the adapter's under way or not. -/
def State.lines (s : State) (begun : Bool) : Lines where
  csr := !s.ctrlOut.getLsbD s.idxCsr.toNat
  csw := !s.ctrlOut.getLsbD s.idxCsw.toNat
  mode := s.walk.modeAsserted s.ctrlOut
  driven := s.ctrlDir.getLsbD s.idxCsw.toNat
  begun := begun
  dout := s.dout

theorem linesOf_lines {s : State} (configured : s.configured = true) (pins : PinsWf s) {begun : Bool}
    (own : begun = true → s.ctrlOut.getLsbD s.idxCsw.toNat = false) : LinesOf (s.lines begun) s where
  configured := configured
  pins := pins
  csr := (Bool.not_not _).symm
  csw := (Bool.not_not _).symm
  mode := rfl
  driven := rfl
  dout := rfl
  own h := by rw [State.lines, own h]; rfl

/-- The idle bus has the idle lines (R139). -/
theorem BusIdle.lines {s : State} (h : BusIdle s) : s.lines false = .idle s.dout := by
  have mode : s.walk.modeAsserted s.ctrlOut = false := idle_not_modeAsserted h
  simp only [State.lines, h.csr, h.csw, mode, h.cswOut, Bool.not_true, Lines.idle]

/-- What the VDP sees, as what the adapter would emit if every asserted write strobe were a pulse of its own. -/
theorem seenFrames_eq (s t : State) :
    seenFrames s t = emittedFrom s.walk (!s.ctrlOut.getLsbD s.idxCsw.toNat) (newEvents s t) :=
  framesFrom_eq_emittedFrom _ _

/-- From the idle bus the VDP sees what the adapter emits (R111). -/
theorem BusIdle.seenFrames_eq_emittedFrames {s : State} (h : BusIdle s) (t : State) :
    seenFrames s t = emittedFrames s t := by
  rw [seenFrames_eq, h.csw]
  rfl

/-- From the idle bus a run of such steps, whatever lands, emits legal frames. -/
theorem BusIdle.legal_runOps {s : State} (h : BusIdle s) (configured : s.configured = true) (pins : PinsWf s)
    (ha : s.arst = false) {ops : List MicroOp} (legal : LegalSteps ops) (fixed : ∀ op ∈ ops, .pins ∉ op.parts) :
    LegalFrames (emittedFrames s (runOps ops s)) := by
  have lines : LinesOf (.idle s.dout) s := h.lines ▸ linesOf_lines (begun := false) configured pins nofun
  obtain held | ⟨fs, g, shows, emits⟩ := shows_runOps lines ha fixed
  · rw [emittedFrames, newEvents_of_held s held]
    exact legalFrames_nil
  · have frames : emittedFrames s (runOps ops s) = fs := emits.emittedFrom_eq
    rw [frames]
    exact legal _ _ _ shows

/-- No word gives a configured adapter other pins (R136). -/
theorem pins_not_mem_acceptedSteps {s : State} (configured : s.configured = true) (w : CommandWord) :
    ∀ op ∈ acceptedSteps w s, .pins ∉ op.parts := by
  obtain ⟨i, -, steps, -⟩ | illegal := within_acceptedSteps w s
  · rw [steps]
    exact pins_not_mem_stepsOf configured i
  · rw [illegal]
    simp [MicroOp.parts]

/-! ## Before the ports are initialised -/

/-- Before INIT_PORTS has run no other command touches the bus, and nor does INIT_PORTS before CFG_PINS (R106). -/
theorem bus_not_mem_stepsOf {s : State} (ports : s.portsInit = false) {i : Instr}
    (h : i = .initPorts → s.configured = false) : ∀ op ∈ stepsOf s i, .bus ∉ op.parts := by
  by_cases hb : .bus ∈ partsOf i
  · have fails : ¬guardHolds s i = true := by
      cases i with
      | initPorts => simp [guardHolds, h rfl]
      | nop | cfgPins | setTableBase | clearFlags => simp [partsOf] at hb
      | _ => simp [guardHolds, ports]
    rw [stepsOf, if_neg fails]
    cases isBulk i <;> simp [MicroOp.parts]
  · exact (within_stepsOf s i).not_mem hb

theorem bus_not_mem_acceptedSteps {s : State} (ports : s.portsInit = false) {w : CommandWord}
    (h : decode w = .ok .initPorts → s.configured = false) : ∀ op ∈ acceptedSteps w s, .bus ∉ op.parts := by
  obtain ⟨i, ok, steps, -⟩ | illegal := within_acceptedSteps w s
  · rw [steps]
    exact bus_not_mem_stepsOf ports fun hi => h (hi ▸ ok)
  · rw [illegal]
    simp [MicroOp.parts]

/-- A write of a direction or an output of the control port. -/
def Event.IsPortWrite : Event → Prop
  | .ctrl _ => True
  | .ctrlDir _ => True
  | _ => False

/-- Without a role for the write strobe such events are no frames (R325; log 10). -/
theorem frames_of_portWrites {w : Walk} (h : w.configured = false) {es : List Event} (writes : ∀ e ∈ es, e.IsPortWrite)
    (begun : Bool) : emittedFrom w begun es = [] := by
  induction es generalizing w begun with
  | nil => rfl
  | cons e es ih =>
    obtain ⟨write, writes⟩ := List.forall_mem_cons.mp writes
    have next : emittedFrom (w.after e) (w.pulsing begun e) es = [] :=
      ih (by cases e <;> exact h) writes _
    have noFrame : w.frameAt e = none := by
      cases e with
      | ctrl v => simp [Walk.frameAt, Walk.writeEdge, Walk.drives, h]
      | ctrlDir v => rfl
      | _ => exact absurd write id
    rw [emittedFrom, noFrame, next]

/-- The trace has grown since `s` by writes of the control port alone. -/
def OnlyPortWrites (s u : State) : Prop :=
  ∃ es : List Event, u.trace = es.reverse ++ s.trace ∧ ∀ e ∈ es, e.IsPortWrite

theorem standing_onlyPortWrites (s : State) : Standing (OnlyPortWrites s) where
  land i u hi := by
    rintro ⟨es, trace, writes⟩
    have still {t : State} (h : t.trace = u.trace) : OnlyPortWrites s t := ⟨es, h.trans trace, writes⟩
    have more {t : State} {e : Event} (h : t.trace = e :: u.trace) (he : e.IsPortWrite) : OnlyPortWrites s t :=
      ⟨es ++ [e], by rw [h, trace]; simp, List.forall_mem_append.mpr ⟨writes, List.forall_mem_singleton.mpr he⟩⟩
    cases i with
    | arst b => cases b <;> [exact still rfl; exact absurd rfl hi]
    | command w => simp only [landInput, dropCommand]; split <;> exact still rfl
    | ctrlWrite m v => simp only [landInput]; split <;> [exact still rfl; exact more rfl trivial]
    | ctrlDirWrite m v => simp only [landInput]; split <;> [exact still rfl; exact more rfl trivial]
    | _ => exact still rfl
  inputs _ _ hu := hu
  todo _ _ hu := hu
  accept _ _ hu := hu

/-- A command stands in its window wait only with the ports initialised. -/
theorem MachineInv.ports_of_busy {s : State} (h : MachineInv s) (busy : s.busy = true) : s.portsInit = true := by
  cases h.position with
  | idle idle => exact absurd (idle.symm.trans busy) Bool.false_ne_true
  | waitingWrite _ _ _ _ _ _ ports => exact ports
  | waitingRead _ _ _ _ _ _ ports => exact ports

/-- Before CFG_PINS a step shows no frame: only the host writes the control port, whose pins have no role (R325). -/
theorem no_frames_unconfigured {s t : State} (h : MachineInv s) (configured : s.configured = false)
    (e : step s = .next t) (begun : Bool) : emittedFrom s.walk begun (newEvents s t) = [] := by
  have ports : s.portsInit = false := Bool.eq_false_iff.mpr fun hp =>
    absurd (configured.symm.trans (h.ports hp)) Bool.false_ne_true
  have run : t = heldInReset t ∨ OnlyPortWrites s t := by
    refine (standing_onlyPortWrites s).step ⟨[], rfl, nofun⟩ e (fun busy => ?_) (fun w _ _ _ op ho u => ?_)
    · exact absurd (ports.symm.trans (h.ports_of_busy busy)) Bool.false_ne_true
    · rintro ⟨es, trace, writes⟩
      have silent := bus_not_mem_acceptedSteps ports (fun _ => configured) op ho
      exact ⟨es, (agree_perform silent u).bus.1.trans trace, writes⟩
  obtain held | ⟨es, trace, writes⟩ := run
  · rw [newEvents_of_held s held]
    rfl
  · rw [newEvents_eq es trace]
    exact frames_of_portWrites configured writes begun

/-- INIT_PORTS from any lines: the one frame it can be is that of its first step, the end of a pulse that was under way
(R132, R137). -/
theorem Shows.initPorts {f g : Lines} {fs : List Frame} (h : Shows (initPortsOps ++ [.finish .zero]) f fs g) :
    fs = f.edge false .csw := by
  simp_all [initPortsOps]

/-- The pulse that INIT_PORTS ends for the VDP (R132; log 10). -/
theorem hostPulse_eq_edge {s : State} (configured : s.configured = true) :
    hostPulse s = (s.lines (!s.ctrlOut.getLsbD s.idxCsw.toNat)).edge false .csw := by
  simp [hostPulse, configured, State.lines, State.walk, Walk.modeAsserted]

/-- PORTS_INIT is set once INIT_PORTS has come to its end (R27, R137). -/
theorem portsInit_runOps_initPortsOps (r : ResultSource) {s : State} (ha : s.arst = false) :
    runOps (initPortsOps ++ [.finish r]) s = heldInReset (runOps (initPortsOps ++ [.finish r]) s) ∨
      (runOps (initPortsOps ++ [.finish r]) s).portsInit = true := by
  refine runOps_induct (P := fun ops u => .windowWait ∉ ops ∧ (.portsReady ∈ ops ∨ u.portsInit = true))
    (Q := fun t => t = heldInReset t ∨ t.portsInit = true) ?land ?inputs ?reset ?step ?done ?wait _ s
    ⟨by simp [initPortsOps], by simp [initPortsOps]⟩ ha
  case land =>
    rintro ops i u ⟨noWait, ready⟩ - hi
    obtain ⟨-, -, -, -, -, -, -, ports, -⟩ := landInput_keeps u hi
    exact ⟨noWait, ready.imp_right ports.trans⟩
  case inputs => exact fun _ _ _ hu => hu
  case reset => exact fun _ _ _ _ => .inl rfl
  case step =>
    rintro op rest u ⟨noWait, ready⟩ - -
    refine ⟨fun hw => noWait (List.mem_cons_of_mem _ hw), ?_⟩
    obtain ready | ready := ready
    · obtain rfl | ready := List.mem_cons.mp ready
      · exact .inr rfl
      · exact .inl ready
    · exact .inr (perform_portsInit op ready)
  case done =>
    rintro u ⟨-, ready⟩ -
    exact .inr (ready.resolve_left nofun)
  case wait => exact fun _ _ ⟨noWait, _⟩ _ _ => absurd List.mem_cons_self noWait

/-- PORTS_INIT stays 0 (R27). -/
theorem standing_not_portsInit : Standing fun u => u.portsInit = false where
  land i u hi hu := by
    obtain ⟨-, -, -, -, -, -, -, ports, -⟩ := landInput_keeps u hi
    exact ports.trans hu
  inputs _ _ hu := hu
  todo _ _ hu := hu
  accept _ _ hu := hu

/-- Only INIT_PORTS sets PORTS_INIT (R27). -/
theorem portsInit_runOps_acceptedSteps {w : CommandWord} (h : decode w ≠ .ok .initPorts) {s u : State}
    (ports : u.portsInit = false) (ha : u.arst = false) : (runOps (acceptedSteps w s) u).portsInit = false := by
  have steps : ∀ op ∈ acceptedSteps w s, .ports ∉ op.parts := by
    obtain ⟨i, ok, -, within⟩ | illegal := within_acceptedSteps w s
    · refine within.not_mem fun hm => h ?_
      cases i with
      | initPorts => exact ok
      | _ => simp [partsOf, bulkParts] at hm
    · rw [illegal]
      simp [MicroOp.parts]
  obtain held | stays := standing_not_portsInit.runOps ports ha fun op ho v hv =>
    (agree_perform (steps op ho) v).ports.1.trans hv
  · rw [held]
    rfl
  · exact stays

/-- Before the ports are initialised a command is no frame, but for an INIT_PORTS that runs to its end and finds a pulse
under way (R132, R137; log 10). -/
theorem frames_unready_start {s : State} (configured : s.configured = true) (ports : s.portsInit = false)
    (arst : s.arst = false) {begun : Bool} (lines : LinesOf (s.lines begun) s) (w : CommandWord) :
    emittedFrom s.walk begun (newEvents s (runOps (acceptedSteps w s) (acceptCommand w s))) =
      if (runOps (acceptedSteps w s) (acceptCommand w s)).portsInit then (s.lines begun).edge false .csw else [] := by
  have started : LinesOf (s.lines begun) (acceptCommand w s) := lines.of_walk (lines.pins.of_bus rfl) rfl
  obtain held | ⟨fs, g, shows, emits⟩ := shows_runOps started arst (pins_not_mem_acceptedSteps configured w)
  · rw [newEvents_of_held s held, held]
    rfl
  · have frames : emittedFrom s.walk begun (newEvents s (runOps (acceptedSteps w s) (acceptCommand w s))) = fs :=
      emits.emittedFrom_eq
    rw [frames]
    by_cases init : decode w = .ok .initPorts
    · have steps : acceptedSteps w s = initPortsOps ++ [.finish .zero] := by
        rw [acceptedSteps, init]
        exact if_pos configured
      rw [steps] at shows frames ⊢
      obtain held | ready := portsInit_runOps_initPortsOps .zero (s := acceptCommand w s) arst
      · rw [← frames, newEvents_of_held s held, held]
        rfl
      · rw [ready]
        exact shows.initPorts
    · obtain ⟨rfl, -⟩ := shows.of_silent (bus_not_mem_acceptedSteps ports fun ok => absurd ok init)
      have stays : (runOps (acceptedSteps w s) (acceptCommand w s)).portsInit = false :=
        portsInit_runOps_acceptedSteps init ports arst
      rw [stays]
      rfl

/-- Before the ports are initialised a step of a configured adapter is no frame, but for such an INIT_PORTS. -/
theorem frames_unready {s t : State} (h : MachineInv s) (configured : s.configured = true) (ports : s.portsInit = false)
    (e : step s = .next t) {begun : Bool} (own : begun = true → s.ctrlOut.getLsbD s.idxCsw.toNat = false) :
    emittedFrom s.walk begun (newEvents s t) = if t.portsInit then (s.lines begun).edge false .csw else [] := by
  have lines (rest : List Input) : LinesOf (s.lines begun) { s with inputs := rest } :=
    (linesOf_lines configured (h.pins configured) own).of_walk ((h.pins configured).of_bus rfl) rfl
  obtain ⟨busy, -, -⟩ | ⟨-, -, rfl⟩ | ⟨i, rest, -, -, -, rfl⟩ | ⟨w, rest, -, -, arst, e⟩ := step_cases e
  · exact absurd (ports.symm.trans (h.ports_of_busy busy)) Bool.false_ne_true
  · rw [newEvents_eq [] rfl, ports]
    rfl
  · by_cases hi : i = .arst true
    · subst hi
      rw [newEvents_of_held s rfl]
      rfl
    · obtain ⟨-, -, -, -, -, -, -, stays, -⟩ := landInput_keeps { s with inputs := rest } hi
      rw [stays.trans ports]
      exact ((lines rest).landInput hi).emittedFrom_eq
  · rw [startCommand_eq] at e
    cases e
    exact frames_unready_start (s := { s with inputs := rest }) configured ports arst (lines rest) w

/-! ## Every step -/

/-- From a state of the invariant with the ports initialised a step emits legal frames (R111). -/
theorem legal_step {s t : State} (h : MachineInv s) (ports : s.portsInit = true) (e : step s = .next t) :
    LegalFrames (emittedFrames s t) := by
  have configured := h.ports ports
  have pins := h.pins configured
  have idle := h.idle ports
  have noFrames {t : State} (frames : emittedFrom s.walk false (newEvents s t) = []) :
      LegalFrames (emittedFrames s t) := by
    rw [emittedFrames, frames]
    exact legalFrames_nil
  obtain ⟨busy, arst, rfl⟩ | ⟨-, -, rfl⟩ | ⟨i, rest, -, -, -, rfl⟩ | ⟨w, rest, -, -, arst, e⟩ := step_cases e
  · exact idle.legal_runOps configured pins arst (h.legalSteps_todo busy) ((h.within_todo busy).not_mem (by decide))
  · exact noFrames (by rw [newEvents_eq [] rfl]; rfl)
  · by_cases hi : i = .arst true
    · subst hi
      exact noFrames (by rw [newEvents_of_held s rfl]; rfl)
    · have lines : LinesOf (s.lines false) { s with inputs := rest } :=
        (linesOf_lines (begun := false) configured pins nofun).of_walk (pins.of_bus rfl) rfl
      exact noFrames (lines.landInput hi).emittedFrom_eq
  · rw [startCommand_eq] at e
    cases e
    exact BusIdle.legal_runOps (s := acceptCommand w { s with inputs := rest }) (idle.of_bus rfl) configured
      (pins.of_bus rfl) arst (legalSteps_acceptedSteps w _)
      (pins_not_mem_acceptedSteps (s := { s with inputs := rest }) configured w)

/-- Settles O27: with the ports initialised the frames are those of the steps, which are legal; before that there is
none but the end of a pulse the host had begun. -/
theorem onlyLegalFramesAreEmitted : Obligations.OnlyLegalFramesAreEmitted := by
  refine ⟨fun i s t hr e => ?command, fun s t h e => ?step⟩
  case command =>
    refine ⟨hr.idle.seenFrames_eq_emittedFrames t, ?_⟩
    rw [exec_eq_execute] at e
    cases e
    exact BusIdle.legal_runOps (s := { s with busy := true }) (hr.idle.of_bus rfl) hr.configured (hr.pins.of_bus rfl)
      hr.quiet.arst (legalSteps_stepsOf s i) (pins_not_mem_stepsOf hr.configured i)
  case step =>
    cases ports : s.portsInit with
    | true =>
      exact ⟨legal_step h ports e, fun _ => (h.idle ports).seenFrames_eq_emittedFrames t,
        fun hp => absurd hp.symm Bool.false_ne_true⟩
    | false =>
      have frames : emittedFrames s t = [] ∧ seenFrames s t = if t.portsInit = true then hostPulse s else [] := by
        rw [seenFrames_eq, emittedFrames]
        cases configured : s.configured with
        | false =>
          have noPulse : hostPulse s = [] := by simp [hostPulse, configured]
          rw [noPulse, ite_self]
          exact ⟨no_frames_unconfigured h configured e _, no_frames_unconfigured h configured e _⟩
        | true =>
          have noPulse : (s.lines false).edge false .csw = [] := by simp [State.lines]
          rw [frames_unready (begun := false) h configured ports e nofun, frames_unready h configured ports e (by simp),
            ← hostPulse_eq_edge configured, noPulse]
          exact ⟨ite_self _, rfl⟩
      exact ⟨frames.1 ▸ legalFrames_nil, fun hp => absurd hp Bool.false_ne_true, fun _ => frames⟩

end Sys2Proof.Machine

/-! The bus signaler's commands: CFG_PINS, INIT_PORTS and the framing pair (R136-R138). -/

namespace Sys2Proof.Machine

open Sys2Proof.Expected

/-! ## CFG_PINS -/

/-- The fields CFG_PINS takes for valid, in the words of R136. -/
theorem pinsValid_iff (csr csw mode rst int : BitVec 4) (pres : BitVec 8) :
    pinsValid csr csw mode rst int pres = true ↔
      pres = 0xFF ∧ csr.toNat < 8 ∧ csw.toNat < 8 ∧ mode.toNat < 8 ∧ rst.toNat < 8 ∧ int.toNat < 8 ∧
        [csr, csw, mode, rst].Nodup := by
  simp only [pinsValid, Bool.and_eq_true, beq_iff_eq, bne_iff_ne, decide_eq_true_eq, List.nodup_cons, List.mem_cons,
    List.not_mem_nil, or_false, not_or, List.nodup_nil, not_false_eq_true, and_true, and_assoc]

/-- Settles O15: the guard is that of R136, and the assignments taken together are the new configuration. -/
theorem cfgPinsConfiguresOnce : Obligations.CfgPinsConfiguresOnce := by
  intro s csr csw mode rst int pres var bpol dsh quiet
  have guard : (!s.configured && pinsValid csr csw mode rst int pres) = true ↔
      s.configured = false ∧ pres = 0xFF ∧ csr.toNat < 8 ∧ csw.toNat < 8 ∧ mode.toNat < 8 ∧ rst.toNat < 8 ∧
        int.toNat < 8 ∧ [csr, csw, mode, rst].Nodup := by
    rw [Bool.and_eq_true, Bool.not_eq_true', pinsValid_iff]
  simp only [← guard, exec, execCfgPins]
  refine ⟨fun holds => ?valid, fun fails => ?invalid⟩
  case valid =>
    rw [holds, command_true_quiet quiet .zero (by simp [configureOps]), performAll_configureOps]
    rfl
  case invalid =>
    rw [Bool.eq_false_iff.mpr fails]
    exact command_false_quiet quiet _ _

/-! ## INIT_PORTS -/

/-- A `Ctrl` event that finds the write strobe deasserted is no frame (R132). -/
theorem frameAt_ctrl_high {w : Walk} (h : w.ctrl.getLsbD w.idxCsw.toNat = true) (c : Byte) :
    w.frameAt (.ctrl c) = none := by
  simp [Walk.frameAt, Walk.writeEdge, h]

/-- CTRL_OUT after `Deassert(CSW)`. -/
def cswHigh (s : State) : Byte := withBit s.ctrlOut s.idxCsw.toNat true

/-- Once INIT_PORTS has put the write strobe at its idle level, driving CSR and then the mode line leaves it there
(R137). -/
theorem csw_high_along_initPorts {s : State} (pins : PinsWf s) :
    let c2 := withBit (cswHigh s) s.idxCsr.toNat true
    (cswHigh s).getLsbD s.idxCsw.toNat = true ∧ c2.getLsbD s.idxCsw.toNat = true ∧
      (withBit c2 s.idxMode.toNat (!s.params.modeAssertLevel)).getLsbD s.idxCsw.toNat = true := by
  have keep {b : Byte} {k : Nat} (level : Bool) (ne : s.idxCsw.toNat ≠ k) (h : b.getLsbD s.idxCsw.toNat = true) :
      (withBit b k level).getLsbD s.idxCsw.toNat = true := (getLsbD_withBit_other _ _ pins.csw ne).trans h
  have up : (cswHigh s).getLsbD s.idxCsw.toNat = true := getLsbD_withBit_same _ _ pins.csw
  have second := keep true (toNat_ne pins.csrCsw).symm up
  exact ⟨up, second, keep _ (toNat_ne pins.cswMode) second⟩

/-- INIT_PORTS's first event is the end of a pulse the host had begun, if there is one (R132; log 10). -/
theorem frameAt_cswHigh {s : State} (pins : PinsWf s) :
    (s.walk.frameAt (.ctrl (cswHigh s))).toList = hostPulse s := by
  have up : (cswHigh s).getLsbD s.idxCsw.toNat = true := getLsbD_withBit_same _ _ pins.csw
  have mode : (cswHigh s).getLsbD s.idxMode.toNat = s.ctrlOut.getLsbD s.idxMode.toNat :=
    getLsbD_withBit_other _ _ pins.mode (toNat_ne pins.cswMode).symm
  simp only [Walk.frameAt, Walk.writeEdge, Walk.drives, Walk.modeAsserted, State.walk, up, mode, hostPulse,
    Bool.and_true]
  split <;> rfl

/-- An attached VDP takes the frame that a `Ctrl` event is, if it is one (R132). -/
theorem vdpAfter_ctrl (w : Walk) (c : Byte) (v : Option RefVdp) :
    vdpAfter w (.ctrl c) v =
      v.map fun u => (w.frameAt (.ctrl c)).toList.foldl (fun u f => u.writeFrame f.framing f.byte) u := by
  cases v with
  | none => rfl
  | some u => cases edge : w.writeEdge c <;> simp [vdpAfter, Walk.frameAt, edge]

/-- INIT_PORTS's steps up to `finish(0)` (R137). -/
theorem performAll_initPortsOps {s : State} (pins : PinsWf s) : performAll initPortsOps s = afterInitPorts s := by
  obtain ⟨up, second, third⟩ := csw_high_along_initPorts pins
  have first : vdpAfter s.walk (.ctrl (cswHigh s)) s.vdp = (afterInitPorts s).vdp := by
    rw [vdpAfter_ctrl, frameAt_cswHigh pins]
    rfl
  simp only [initPortsOps, performAll_cons, performAll_nil, perform, deassertOp, driveLine, writeCtrl, writeCtrlDir,
    writeIntDir, setDataDir, State.roleIndex, assertLevel, Bool.not_false, Bool.not_not, ← cswHigh.eq_1, first]
  rw [vdpAfter_still_high _ _ _ third, vdpAfter_still_high _ _ _ second, vdpAfter_still_high _ _ _ up]
  rfl

theorem framesFrom_cons (w : Walk) (e : Event) (es : List Event) :
    framesFrom w (e :: es) = (w.frameAt e).toList ++ framesFrom (w.after e) es := by
  rw [framesFrom]
  cases w.frameAt e <;> rfl

/-- From INIT_PORTS the VDP sees the end of a pulse the host had begun, and no more (R132, R137). -/
theorem framesFrom_initPortsEvents {s : State} (pins : PinsWf s) :
    framesFrom s.walk (initPortsEvents s) = hostPulse s := by
  obtain ⟨up, second, third⟩ := csw_high_along_initPorts pins
  simp only [initPortsEvents, ← cswHigh.eq_1]
  rw [framesFrom_cons, frameAt_cswHigh pins, framesFrom_cons, frameAt_ctrl_high up, framesFrom_cons,
    frameAt_ctrl_high second, framesFrom_cons, frameAt_ctrl_high third]
  exact List.append_nil _

/-- Settles O16: the steps put the lines at their idle levels one after another, and only the first can be a frame. -/
theorem initPortsMakesTheBusIdle : Obligations.InitPortsMakesTheBusIdle := by
  intro s quiet
  refine ⟨fun configured pins => ⟨?runs, (busIdle_afterInitPorts pins configured).of_bus rfl,
    framesFrom_initPortsEvents pins⟩, failedGuardIsASilentNoop .initPorts s quiet⟩
  have steps : performAll initPortsOps { s with busy := true } = afterInitPorts { s with busy := true } :=
    performAll_initPortsOps (pins.of_bus rfl)
  have run := command_true_quiet quiet (ops := initPortsOps) .zero (by simp [initPortsOps])
  rw [steps] at run
  have guard : gCfg s = true := configured
  change command (gCfg s) initPortsOps .zero s = _
  rw [guard, run]
  rfl

/-! ## Framing pairs -/

/-- Settles O17: from the idle bus each variant has two rising edges of the write strobe, both with the mode line
asserted and the byte of their pulse on DOUT. -/
theorem framingPairIsTwoFrames : Obligations.FramingPairIsTwoFrames := by
  intro s b1 b2 configured pins idle
  have strobeHigh := modeOn_csw pins idle
  have asserted := modeOn_mode pins
  have strobeLow := cswLow_csw pins
  have mode : s.ctrlOut.getLsbD s.idxMode.toNat = !s.params.modeAssertLevel := idle.mode
  refine ⟨?frames, ?last, mode⟩
  case frames =>
    cases h : s.seqVariant <;>
      simp [pairEvents, h, framesFrom, Walk.frameAt, Walk.writeEdge, Walk.drives, Walk.modeAsserted, Walk.after,
        State.walk, configured, strobeHigh, strobeLow, asserted, idle.csw, idle.cswOut]
  case last => cases h : s.seqVariant <;> simp [pairEvents, h]

end Sys2Proof.Machine

/-! The host on the control port, and equivalent traces (R133-R135, R325). -/

namespace Sys2Proof.Machine

open Sys2Proof.Expected

/-! ## Host writes -/

/-- The host cannot write a bit that has a role (R134, R135). -/
theorem getLsbD_hostWrite_role {s : State} (configured : s.configured = true) (r mask val : Byte) {j : Nat}
    (role : IsRole s j) : (maskedWrite r (s.hostWritable mask) val).getLsbD j = r.getLsbD j := by
  by_cases hj : j < 8
  · rw [getLsbD_maskedWrite _ _ _ _ hj, State.hostWritable, BitVec.getLsbD_and, BitVec.getLsbD_not,
      roleMask_role s configured j hj role]
    simp
  · rw [BitVec.getLsbD_of_ge _ _ (Nat.le_of_not_lt hj), BitVec.getLsbD_of_ge _ _ (Nat.le_of_not_lt hj)]

/-- It writes every other bit of its mask (R134, R135). -/
theorem getLsbD_hostWrite_free {s : State} (r mask val : Byte) {j : Nat} (hj : j < 8)
    (free : ¬(s.configured = true ∧ IsRole s j)) :
    (maskedWrite r (s.hostWritable mask) val).getLsbD j = if mask.getLsbD j then val.getLsbD j else r.getLsbD j := by
  have outside : s.roleMask.getLsbD j = false := by
    cases configured : s.configured with
    | false => rw [roleMask_unconfigured s configured]; exact BitVec.getLsbD_zero
    | true =>
      rw [getLsbD_roleMask s configured j hj]
      simpa [configured, IsRole, and_assoc] using free
  rw [getLsbD_maskedWrite _ _ _ _ hj, State.hostWritable, BitVec.getLsbD_and, BitVec.getLsbD_not, outside]
  simp [hj]

/-- A host write to CTRL_OUT is no frame: it cannot move the write strobe, or no pin is a strobe yet (R134, R325;
log 10). -/
theorem frameAt_hostCtrlWrite (s : State) (mask val : Byte) :
    s.walk.frameAt (.ctrl (maskedWrite s.ctrlOut (s.hostWritable mask) val)) = none := by
  cases configured : s.configured with
  | false => simp [Walk.frameAt, Walk.writeEdge, Walk.drives, State.walk, configured]
  | true =>
    have kept := getLsbD_hostWrite_role configured s.ctrlOut mask val (.inr (.inl rfl))
    simp [Walk.frameAt, Walk.writeEdge, State.walk, kept]

/-- A host write to CTRL_OUT, which an attached VDP does not see (R134, R325). -/
theorem landInput_ctrlWrite {s : State} (arst : s.arst = false) (mask val : Byte) :
    landInput (.ctrlWrite mask val) s =
      { s with
        ctrlOut := maskedWrite s.ctrlOut (s.hostWritable mask) val
        trace := .ctrl (maskedWrite s.ctrlOut (s.hostWritable mask) val) :: s.trace } := by
  have same : vdpAfter s.walk (.ctrl (maskedWrite s.ctrlOut (s.hostWritable mask) val)) s.vdp = s.vdp := by
    rw [vdpAfter_ctrl, frameAt_hostCtrlWrite]
    exact Option.map_id'
  refine (if_neg (Bool.eq_false_iff.mp arst)).trans ?_
  rw [hostCtrlWrite, writeCtrl, same]

/-- A host write to CTRL_DIR (R135). -/
theorem landInput_ctrlDirWrite {s : State} (arst : s.arst = false) (mask val : Byte) :
    landInput (.ctrlDirWrite mask val) s =
      { s with
        ctrlDir := maskedWrite s.ctrlDir (s.hostWritable mask) val
        trace := .ctrlDir (maskedWrite s.ctrlDir (s.hostWritable mask) val) :: s.trace } :=
  if_neg (Bool.eq_false_iff.mp arst)

/-- Settles O18: both registers take the same masked write, whose bits are the host's where no role owns them. -/
theorem hostWritesKeepTheRoleBits : Obligations.HostWritesKeepTheRoleBits := by
  intro s mask val arst owned
  have bits (r : Byte) : ∀ j < 8,
      (mask.getLsbD j = true ∧ ¬owned j → (maskedWrite r (s.hostWritable mask) val).getLsbD j = val.getLsbD j) ∧
        (mask.getLsbD j = false ∨ owned j → (maskedWrite r (s.hostWritable mask) val).getLsbD j = r.getLsbD j) := by
    intro j hj
    by_cases role : owned j
    · exact ⟨fun h => absurd role h.2, fun _ => getLsbD_hostWrite_role role.1 r mask val role.2⟩
    · rw [getLsbD_hostWrite_free r mask val hj role]
      exact ⟨fun h => if_pos h.1, fun h => if_neg (Bool.eq_false_iff.mp (h.resolve_right role))⟩
  exact ⟨⟨_, landInput_ctrlWrite arst mask val, bits _⟩, ⟨_, landInput_ctrlDirWrite arst mask val, bits _⟩⟩

/-! ## Equivalent traces -/

/-- A walk with the three port registers that frames depend on (R132, R133). -/
structure Walk.On (w : Walk) (r : PortRegs) : Prop where
  ctrl : w.ctrl = r.ctrlOut
  dir : w.dir = r.ctrlDir
  dout : w.dout = r.dout

theorem Walk.On.after {w : Walk} {r : PortRegs} (h : w.On r) (e : Event) : (w.after e).On (r.after e) := by
  obtain ⟨ctrl, dir, dout⟩ := h
  cases e with
  | ctrl v => exact ⟨rfl, dir, dout⟩
  | ctrlDir v => exact ⟨ctrl, rfl, dout⟩
  | data v => exact ⟨ctrl, dir, rfl⟩
  | _ => exact ⟨ctrl, dir, dout⟩

/-- An event that leaves its register unchanged moves no line, so it is no frame (R132, R133). -/
theorem Walk.On.idleEvent {w : Walk} {r : PortRegs} (h : w.On r) {e : Event} (idle : r.idleEvent e = true) :
    w.frameAt e = none ∧ w.after e = w := by
  obtain ⟨ctrl, dir, dout⟩ := h
  cases e with
  | ctrl v =>
    obtain rfl := (beq_iff_eq.mp idle).trans ctrl.symm
    exact ⟨by simp [Walk.frameAt, Walk.writeEdge], rfl⟩
  | ctrlDir v =>
    obtain rfl := (beq_iff_eq.mp idle).trans dir.symm
    exact ⟨rfl, rfl⟩
  | data v =>
    obtain rfl := (beq_iff_eq.mp idle).trans dout.symm
    exact ⟨rfl, rfl⟩
  | ddir | intDir => exact ⟨rfl, rfl⟩
  | _ => exact absurd idle Bool.false_ne_true

/-- A reduced trace shows the frames of the whole one (R133). -/
theorem Walk.On.reduceTrace {w : Walk} {r : PortRegs} (h : w.On r) (es : List Event) :
    framesFrom w (reduceTrace r es) = framesFrom w es ∧ walkAfter w (reduceTrace r es) = walkAfter w es := by
  induction es generalizing w r with
  | nil => exact ⟨rfl, rfl⟩
  | cons e es ih =>
    have whole : walkAfter w (e :: es) = walkAfter (w.after e) es := rfl
    rw [Machine.reduceTrace, framesFrom_cons, whole]
    split
    next idle =>
      obtain ⟨frame, after⟩ := h.idleEvent idle
      rw [frame, after]
      exact ih h
    next =>
      obtain ⟨frames, walk⟩ := ih (h.after e)
      exact ⟨by rw [framesFrom_cons, frames], walk⟩

/-- Settles O21: both traces show what their common reduced trace shows. -/
theorem equivalentTracesShowTheSameFrames : Obligations.EquivalentTracesShowTheSameFrames := by
  intro r w a b ctrl dir dout equivalent
  have on : w.On r := ⟨ctrl, dir, dout⟩
  obtain ⟨framesA, walkA⟩ := on.reduceTrace a
  obtain ⟨framesB, walkB⟩ := on.reduceTrace b
  have reduced : reduceTrace r a = reduceTrace r b := beq_iff_eq.mp equivalent
  rw [reduced] at framesA walkA
  exact ⟨framesA.symm.trans framesB, walkA.symm.trans walkB⟩

end Sys2Proof.Machine

/-! The events of a run: which one a step of the pseudocode appends, and that the adapter's own keep the host's bits of
the control port (R120, R140). -/

namespace Sys2Proof.Machine

open Sys2Proof.Expected

/-! ## The event of a step -/

/-- The event a step of the pseudocode appends, if it appends one (R120). -/
def MicroOp.event (s : State) : MicroOp → Option Event
  | .assertLine role => some (.ctrl (withBit s.ctrlOut (s.roleIndex role) (assertLevel s.params role)))
  | .deassertLine role => some (.ctrl (withBit s.ctrlOut (s.roleIndex role) (!assertLevel s.params role)))
  | .putData v => some (.data v)
  | .putHeld => some (.data s.latch)
  | .setDir d => some (.ddir d)
  | .restoreDir => some (.ddir s.savedDdir)
  | .sampleData => some (.sampD (dinByte s))
  | .windowWait => some (.sampI (intLevel s))
  | .delay => some (.delay s.params.delay)
  | .hostRead h m => some (.hrd (hostAddress h m s.i) (s.hostmem.hostRead (hostAddress h m s.i)))
  | .hostWrite h m => some (.hwr (hostAddress h m s.i) s.latch)
  | .rolesOutput => some (.ctrlDir (s.ctrlDir ||| s.roleMask))
  | .intInput => some (.intDir (withBit s.intDir s.idxInt.toNat false))
  | _ => none

theorem perform_trace (op : MicroOp) (s : State) : (perform op s).trace = (op.event s).toList ++ s.trace := by
  cases op <;> rfl

/-! ## The host's bits -/

/-- The host's bits are those without a role (R134, R140). -/
theorem getLsbD_hostBits (s : State) (b : Byte) {j : Nat} (hj : j < 8) :
    (hostBits s b).getLsbD j = (b.getLsbD j && !s.roleMask.getLsbD j) := by
  simp [hostBits, hj]

theorem isRole_roleIndex (s : State) (role : Role) : IsRole s (s.roleIndex role) := by
  cases role <;> simp [IsRole, State.roleIndex]

/-- A line that is driven is no bit of the host's (R121, R122). -/
theorem hostBits_withBit {s : State} (configured : s.configured = true) (b : Byte) (role : Role) (level : Bool) :
    hostBits s (withBit b (s.roleIndex role) level) = hostBits s b := by
  apply byte_ext
  intro j hj
  rw [getLsbD_hostBits _ _ hj, getLsbD_hostBits _ _ hj, getLsbD_withBit _ _ _ _ hj]
  split
  next h => rw [roleMask_role s configured j hj (h ▸ isRole_roleIndex s role), Bool.not_true, Bool.and_false,
    Bool.and_false]
  next => rfl

/-- Making the roles outputs touches no bit of the host's (R137). -/
theorem hostBits_or_roleMask (s : State) (b : Byte) : hostBits s (b ||| s.roleMask) = hostBits s b := by
  apply byte_ext
  intro j hj
  rw [getLsbD_hostBits _ _ hj, getLsbD_hostBits _ _ hj, BitVec.getLsbD_or]
  cases s.roleMask.getLsbD j <;> simp

/-- No step of the pseudocode changes the host's bits, once the pins have their roles (R140). -/
theorem perform_hostBits (op : MicroOp) {s : State} (configured : s.configured = true) :
    hostBits s (perform op s).ctrlOut = hostBits s s.ctrlOut ∧
      hostBits s (perform op s).ctrlDir = hostBits s s.ctrlDir := by
  cases op with
  | assertLine role => exact ⟨hostBits_withBit configured _ role _, rfl⟩
  | deassertLine role => exact ⟨hostBits_withBit configured _ role _, rfl⟩
  | rolesOutput => exact ⟨rfl, hostBits_or_roleMask s _⟩
  | _ => exact ⟨rfl, rfl⟩

/-- Nor does its event (R140). -/
theorem event_keepsHostBits {op : MicroOp} {s : State} (configured : s.configured = true) {e : Event}
    (h : op.event s = some e) : eventKeepsHostBits s e := by
  cases op with
  | assertLine role => cases h; exact hostBits_withBit configured _ role _
  | deassertLine role => cases h; exact hostBits_withBit configured _ role _
  | rolesOutput => cases h; exact hostBits_or_roleMask s _
  | _ => cases h <;> trivial

/-- A run that started in `s` has kept the pins, the host's bits of the ports and those of its `Ctrl` and `CtrlDir`
events (R140). -/
structure HostKept (s u : State) : Prop where
  pins : Agree .pins s u
  out : hostBits s u.ctrlOut = hostBits s s.ctrlOut
  dir : hostBits s u.ctrlDir = hostBits s s.ctrlDir
  events : ∃ es : List Event, u.trace = es.reverse ++ s.trace ∧ ∀ e ∈ es, eventKeepsHostBits s e

theorem HostKept.hostBitsKept {s u : State} (h : HostKept s u) : HostBitsKept s u := by
  obtain ⟨es, trace, kept⟩ := h.events
  refine ⟨h.out, h.dir, ?_⟩
  rw [newEvents_eq es trace]
  exact kept

/-- The host's bits are a matter of the pins (R47). -/
theorem hostBits_of_agree {s u : State} (h : Agree .pins s u) : hostBits u = hostBits s := by
  obtain ⟨configured, csr, csw, mode, reset, -⟩ := h.pins
  have mask : u.roleMask = s.roleMask := by simp only [State.roleMask, configured, csr, csw, mode, reset]
  funext b
  rw [hostBits, hostBits, mask]

/-- The next step of a configured adapter's command, which gives no pin a role. -/
theorem HostKept.perform {s u : State} (h : HostKept s u) (configured : s.configured = true) {op : MicroOp}
    (hop : .pins ∉ op.parts) : HostKept s (perform op u) := by
  have same := hostBits_of_agree h.pins
  have ready : u.configured = true := h.pins.pins.1.trans configured
  obtain ⟨out, dir⟩ := perform_hostBits op ready
  obtain ⟨es, trace, kept⟩ := h.events
  rw [same] at out dir
  refine ⟨h.pins.perform hop, out.trans h.out, dir.trans h.dir, es ++ (op.event u).toList, ?_, ?_⟩
  · rw [perform_trace, trace]
    cases op.event u <;> simp
  · refine List.forall_mem_append.mpr ⟨kept, fun e he => ?_⟩
    have own := event_keepsHostBits ready (Option.mem_toList.mp he)
    cases e with
    | ctrl v => exact (congrFun same v).symm.trans (own.trans ((congrFun same _).trans h.out))
    | ctrlDir v => exact (congrFun same v).symm.trans (own.trans ((congrFun same _).trans h.dir))
    | _ => trivial

/-- The steps of a configured adapter's command that nothing interrupts (R140). -/
theorem HostKept.runOps {s u : State} (h : HostKept s u) (configured : s.configured = true) {ops : List MicroOp}
    (hi : hostWaits u.inputs = true) (ha : u.arst = false) (fixed : ∀ op ∈ ops, .pins ∉ op.parts) :
    HostKept s (runOps ops u) := by
  have todo {v : State} (l : List MicroOp) (h : HostKept s v) : HostKept s { v with todo := l } :=
    ⟨h.pins.trans (.refl .pins v), h.out, h.dir, h.events⟩
  refine runOps_quiet_induct (P := fun ops v => HostKept s v ∧ ∀ op ∈ ops, .pins ∉ op.parts) (Q := HostKept s)
    ?step ?done ?wait ops u ⟨h, fixed⟩ hi ha
  case step =>
    rintro op rest v ⟨h, fixed⟩
    obtain ⟨hop, fixed⟩ := List.forall_mem_cons.mp fixed
    exact ⟨h.perform configured hop, fixed⟩
  case done => exact fun v ⟨h, _⟩ => todo [] h
  case wait =>
    rintro rest v ⟨h, -⟩ -
    exact todo _ (h.perform (op := .windowWait) configured (by simp [MicroOp.parts]))

/-- Before CFG_PINS no command touches the bus or a port (R106). -/
theorem bus_ports_not_mem_stepsOf {s : State} (configured : s.configured = false) (i : Instr) :
    ∀ op ∈ stepsOf s i, .bus ∉ op.parts ∧ .ports ∉ op.parts := by
  by_cases touches : .bus ∈ partsOf i ∨ .ports ∈ partsOf i
  · have fails : ¬guardHolds s i = true := by
      cases i with
      | nop | cfgPins | setTableBase | clearFlags => simp [partsOf] at touches
      | _ => simp [guardHolds, configured]
    rw [stepsOf, if_neg fails]
    cases isBulk i <;> simp [MicroOp.parts]
  · obtain ⟨bus, ports⟩ := not_or.mp touches
    have within := within_stepsOf s i
    exact fun op ho => ⟨within.not_mem bus op ho, within.not_mem ports op ho⟩

/-- A run that leaves the bus and the ports alone has no event, and so keeps the host's bits. -/
theorem hostBitsKept_of_agree {s t : State} (bus : Agree .bus s t) (ports : Agree .ports s t) : HostBitsKept s t := by
  obtain ⟨trace, -, out, -⟩ := bus.bus
  obtain ⟨-, dir, -⟩ := ports.ports
  refine ⟨congrArg _ out, congrArg _ dir, ?_⟩
  rw [newEvents_eq [] trace]
  exact nofun

/-- Settles O19: a driven line is no bit of the host's; before CFG_PINS, when all bits are, no command drives one. -/
theorem adapterKeepsTheHostsBits : Obligations.AdapterKeepsTheHostsBits := by
  refine ⟨fun op s => perform_hostBits op, fun i s t quiet e => ?command, fun s t h quiet busy e => ?rest⟩
  case command =>
    rw [exec_eq_execute] at e
    cases e
    obtain configured | configured := Bool.eq_false_or_eq_true s.configured
    · have start : HostKept s { s with busy := true } := ⟨.refl .pins s, rfl, rfl, [], rfl, nofun⟩
      exact (start.runOps configured quiet.inputs quiet.arst (pins_not_mem_stepsOf configured i)).hostBitsKept
    · have steps := bus_ports_not_mem_stepsOf configured i
      have agree {part : Part} (h : ∀ op ∈ stepsOf s i, part ∉ op.parts) :
          Agree part { s with busy := true } (runOps (stepsOf s i) { s with busy := true }) :=
        agree_runOps_quiet (s := { s with busy := true }) quiet.inputs quiet.arst h
      exact hostBitsKept_of_agree (s := s) (agree fun op ho => (steps op ho).1) (agree fun op ho => (steps op ho).2)
  case rest =>
    rw [step_of_busy busy quiet.arst] at e
    cases e
    have start : HostKept s s := ⟨.refl .pins s, rfl, rfl, [], rfl, nofun⟩
    exact (start.runOps (h.ports (h.ports_of_busy busy)) quiet.inputs quiet.arst
      ((h.within_todo busy).not_mem (by decide))).hostBitsKept

end Sys2Proof.Machine

/-! Two runs of the same steps, one of them with host writes to the control port placed along it: the same frames, and
the same state but for the two registers (R134, R140, R325). -/

namespace Sys2Proof.Machine

open Sys2Proof.Expected

/-! ## The same steps, with and without host writes -/

/-- What is placed along the steps of a command: a host write to the control port, or nothing (R134, R135). -/
def Input.IsPortWrite (i : Input) : Prop :=
  i = .advance ∨ (∃ mask val, i = .ctrlWrite mask val) ∨ ∃ mask val, i = .ctrlDirWrite mask val

/-- `v`, in which nothing is left to land, is `u` but for the control port and the trace. -/
structure Beside (u v : State) : Prop where
  same : ∃ ctrlOut ctrlDir trace, v = { u with ctrlOut, ctrlDir, trace, inputs := [] }
  arst : u.arst = false

theorem Beside.eq {u v : State} (h : Beside u v) :
    { u with ctrlOut := v.ctrlOut, ctrlDir := v.ctrlDir, trace := v.trace, inputs := v.inputs } = v := by
  obtain ⟨_, _, _, rfl⟩ := h.same
  rfl

theorem Beside.withTodo {u v : State} (h : Beside u v) (l : List MicroOp) :
    Beside { u with todo := l } { v with todo := l } := by
  obtain ⟨⟨_, _, _, rfl⟩, arst⟩ := h
  exact ⟨⟨_, _, _, rfl⟩, arst⟩

theorem Beside.withInputs {u v : State} (h : Beside u v) (l : List Input) : Beside { u with inputs := l } v := by
  obtain ⟨⟨_, _, _, rfl⟩, arst⟩ := h
  exact ⟨⟨_, _, _, rfl⟩, arst⟩

/-- A host write to the control port changes nothing else (R134, R135). -/
theorem Beside.landInput {u v : State} (h : Beside u v) {i : Input} (hi : i.IsPortWrite) :
    Beside (landInput i u) v := by
  obtain ⟨⟨_, _, _, rfl⟩, arst⟩ := h
  obtain rfl | ⟨mask, val, rfl⟩ | ⟨mask, val, rfl⟩ := hi
  · exact ⟨⟨_, _, _, rfl⟩, arst⟩
  · rw [landInput_ctrlWrite arst]
    exact ⟨⟨_, _, _, rfl⟩, arst⟩
  · rw [landInput_ctrlDirWrite arst]
    exact ⟨⟨_, _, _, rfl⟩, arst⟩

/-- No step of the pseudocode reads the control port but those that write the bus or a port. -/
theorem Beside.perform_off_bus {u v : State} (h : Beside u v) {op : MicroOp} (bus : .bus ∉ op.parts)
    (ports : .ports ∉ op.parts) : Beside (perform op u) (perform op v) := by
  obtain ⟨⟨_, _, _, rfl⟩, arst⟩ := h
  refine ⟨?_, (perform_arst op u).trans arst⟩
  cases op with
  | assertLine | deassertLine | putData | putHeld | setDir | restoreDir | sampleData | windowWait | delay | hostRead
  | hostWrite | rolesOutput | intInput => simp [MicroOp.parts] at bus
  | portsReady => simp [MicroOp.parts] at ports
  | _ => exact ⟨_, _, _, rfl⟩

/-- A relation that host writes to the control port in the first of two states keep, and that the steps keep in both,
holds between the ends of two runs of these steps, the second with nothing that lands. -/
theorem runOps_relates_beside {R : State → State → Prop} (beside : ∀ u v, R u v → Beside u v)
    (land : ∀ i u v, i.IsPortWrite → R u v → R (landInput i u) v)
    (inputs : ∀ u v l, R u v → R { u with inputs := l } v)
    (todo : ∀ u v l, R u v → R { u with todo := l } { v with todo := l }) {ops : List MicroOp}
    (perform : ∀ op ∈ ops, ∀ u v, R u v → R (perform op u) (perform op v)) {u v : State} (h : R u v)
    (writes : ∀ i ∈ u.inputs, i.IsPortWrite) : R (runOps ops u) (runOps ops v) := by
  have landed (l : List Input) (u v : State) (h : R u v) (writes : ∀ i ∈ l, i.IsPortWrite) :
      R (landInputs l u) v ∧ ∀ i ∈ (landInputs l u).inputs, i.IsPortWrite := by
    induction l generalizing u with
    | nil => exact ⟨inputs _ _ _ h, nofun⟩
    | cons i l ih =>
      obtain ⟨hi, rest⟩ := List.forall_mem_cons.mp writes
      have next := ih _ (land i u v hi h) rest
      obtain rfl | ⟨mask, val, rfl⟩ | ⟨mask, val, rfl⟩ := hi
      · exact ⟨inputs _ _ _ h, rest⟩
      · exact next
      · exact next
  induction ops generalizing u v with
  | nil => exact todo _ _ _ h
  | cons op ops ih =>
    obtain ⟨performOp, perform⟩ := List.forall_mem_cons.mp perform
    obtain ⟨relates, left⟩ := landed _ u v h writes
    obtain ⟨⟨_, _, _, noInputs⟩, arst⟩ := beside _ _ relates
    have quiet : landInputs v.inputs v = v := landInputs_of_waits (by rw [noInputs]; rfl)
    have performed := performOp _ _ relates
    obtain ⟨⟨_, _, _, same⟩, -⟩ := beside _ _ performed
    have waitInt : (Machine.perform op v).waitInt = (Machine.perform op (landInputs u.inputs u)).waitInt := by rw [same]
    have released : v.arst = false := by rw [noInputs]; exact arst
    simp only [runOps, quiet, arst, released, Bool.false_eq_true, ↓reduceIte]
    by_cases waits : op = .windowWait ∧ (Machine.perform op (landInputs u.inputs u)).waitInt = true
    · rw [if_pos waits, if_pos (by rwa [waitInt])]
      exact todo _ _ _ performed
    · rw [if_neg waits, if_neg (by rwa [waitInt])]
      exact ih perform performed (by rwa [perform_inputs])

/-! ## The frames of the two runs -/

theorem SameBus.trans {u v w : State} (h : SameBus u v) (h' : SameBus v w) : SameBus u w where
  params := h.params.trans h'.params
  csr := h.csr.trans h'.csr
  csw := h.csw.trans h'.csw
  mode := h.mode.trans h'.mode
  reset := h.reset.trans h'.reset
  int := h.int.trans h'.int
  configured := h.configured.trans h'.configured
  ddir := h.ddir.trans h'.ddir
  saved := h.saved.trans h'.saved
  intDir := h.intDir.trans h'.intDir
  out j hj role :=
    (h.out j hj (by rwa [IsRole, h'.csr, h'.csw, h'.mode, h'.reset])).trans (h'.out j hj role)
  dir j hj role :=
    (h.dir j hj (by rwa [IsRole, h'.csr, h'.csw, h'.mode, h'.reset])).trans (h'.dir j hj role)

/-- A step that gives no pin a role keeps the same bus the same. -/
theorem SameBus.perform_fixed {u v : State} (h : SameBus u v) {op : MicroOp} (hop : .pins ∉ op.parts) :
    SameBus (Machine.perform op u) (Machine.perform op v) := by
  cases op with
  | setPin | setVariant | setBlankPol | setShared | setConfigured => simp [MicroOp.parts] at hop
  | enterWait | windowWait | setR1 => exact { h with }
  | _ => exact h.perform (c := Params.default) trivial

/-- A run from `s` has come to `u`, and the VDP has seen the frames `fs` (R132). -/
def Seen (s : State) (fs : List Frame) (u : State) : Prop :=
  ∃ es, u.trace = es.reverse ++ s.trace ∧ u.walk = walkAfter s.walk es ∧ framesFrom s.walk es = fs

theorem Seen.seenFrames {s u : State} {fs : List Frame} (h : Seen s fs u) : seenFrames s u = fs := by
  obtain ⟨es, trace, -, frames⟩ := h
  rw [Expected.seenFrames, newEvents_eq es trace, frames]

/-- Where the trace does not grow no frame is seen. -/
theorem Seen.still {s u t : State} {fs : List Frame} (h : Seen s fs u) (trace : t.trace = u.trace)
    (walk : t.walk = u.walk) : Seen s fs t := by
  obtain ⟨es, trace', walk', frames⟩ := h
  exact ⟨es, trace.trans trace', walk.trans walk', frames⟩

/-- One more event, and the frame it is, if it is one (R132). -/
theorem Seen.event {s u t : State} {fs : List Frame} (h : Seen s fs u) {e : Event} (trace : t.trace = e :: u.trace)
    (walk : t.walk = u.walk.after e) : Seen s (fs ++ (u.walk.frameAt e).toList) t := by
  obtain ⟨es, trace', walk', rfl⟩ := h
  refine ⟨es ++ [e], by rw [trace, trace']; simp, ?_, ?_⟩
  · rw [walk, walk', walkAfter_append]
    rfl
  · rw [framesFrom_append, ← walk', framesFrom_cons]
    exact congrArg _ (List.append_nil _)

/-- An event that is no frame. -/
theorem Seen.silent {s u t : State} {fs : List Frame} (h : Seen s fs u) {e : Event} (frame : u.walk.frameAt e = none)
    (trace : t.trace = e :: u.trace) (walk : t.walk = u.walk.after e) : Seen s fs t := by
  have event := h.event trace walk
  rwa [frame, Option.toList_none, List.append_nil] at event

/-- The frame of a step of the pseudocode, if it is one (R132). -/
def MicroOp.frame (s : State) (op : MicroOp) : Option Frame := (op.event s).bind s.walk.frameAt

/-- The walk follows the event of a step that gives no pin a role (R132). -/
theorem perform_walk {op : MicroOp} (hop : .pins ∉ op.parts) (u : State) :
    (perform op u).walk = (op.event u).elim u.walk u.walk.after := by
  cases op with
  | setPin | setVariant | setBlankPol | setShared | setConfigured => simp [MicroOp.parts] at hop
  | _ => rfl

/-- A step that gives no pin a role. -/
theorem Seen.perform {s u : State} {fs : List Frame} (h : Seen s fs u) {op : MicroOp} (hop : .pins ∉ op.parts) :
    Seen s (fs ++ (op.frame u).toList) (perform op u) := by
  have trace := perform_trace op u
  have walk := perform_walk hop u
  rw [MicroOp.frame]
  cases he : op.event u with
  | none =>
    rw [he] at trace walk
    rw [Option.bind_none, Option.toList_none, List.append_nil]
    exact h.still trace walk
  | some e =>
    rw [he] at trace walk
    exact h.event trace walk

/-- Two runs from a configured `s`, the first with host writes placed along it: the roles have the same levels, and the
VDP has seen the same frames (R325). -/
structure Abreast (s u v : State) : Prop where
  beside : Beside u v
  bus : SameBus u v
  configured : v.configured = true
  pins : PinsWf v
  frames : ∃ fs, Seen s fs u ∧ Seen s fs v

/-- An attached VDP sees of an event the frame it is, if it is one (R132). -/
theorem vdpAfter_congr {w w' : Walk} {e e' : Event} (h : w.frameAt e = w'.frameAt e') (v : Option RefVdp) :
    vdpAfter w e v = vdpAfter w' e' v := by
  unfold vdpAfter
  rw [h]

section

variable {s u v : State} (h : Abreast s u v)

include h

theorem Abreast.dout : u.dout = v.dout := by
  obtain ⟨_, _, _, same⟩ := h.beside.same
  rw [same]

/-- Driving a line is the same frame in both runs, or in neither (R132). -/
theorem Abreast.frameAt_driveLine (role : Role) (level : Bool) :
    u.walk.frameAt (.ctrl (withBit u.ctrlOut (u.roleIndex role) level)) =
      v.walk.frameAt (.ctrl (withBit v.ctrlOut (v.roleIndex role) level)) := by
  have bus := h.bus
  have bits := (bus.driveLine role level).out
  have csw := bits _ h.pins.csw (.inr (.inl rfl))
  have mode := bits _ h.pins.mode (.inr (.inr (.inl rfl)))
  have csw' := bus.out _ h.pins.csw (.inr (.inl rfl))
  have driven := bus.dir _ h.pins.csw (.inr (.inl rfl))
  simp only [driveLine_fields] at csw mode
  have edge : u.walk.writeEdge (withBit u.ctrlOut (u.roleIndex role) level) =
      v.walk.writeEdge (withBit v.ctrlOut (v.roleIndex role) level) := by
    simp only [Walk.writeEdge, Walk.drives, State.walk, bus.configured, bus.csw, csw, csw', driven]
  have framing : u.walk.modeAsserted (withBit u.ctrlOut (u.roleIndex role) level) =
      v.walk.modeAsserted (withBit v.ctrlOut (v.roleIndex role) level) := by
    simp only [Walk.modeAsserted, State.walk, bus.mode, bus.params, mode]
  have byte : u.walk.dout = v.walk.dout := h.dout
  rw [Walk.frameAt, Walk.frameAt, edge, framing, byte]

/-- A sample meets the read strobe and the mode line at the same levels in both runs. -/
theorem Abreast.lines :
    u.walk.readStrobed = v.walk.readStrobed ∧ u.walk.modeAsserted u.ctrlOut = v.walk.modeAsserted v.ctrlOut := by
  have csr := h.bus.out _ h.pins.csr (.inl rfl)
  have mode := h.bus.out _ h.pins.mode (.inr (.inr (.inl rfl)))
  simp only [Walk.readStrobed, Walk.modeAsserted, State.walk, h.bus.csr, h.bus.mode, h.bus.params, csr, mode, and_self]

/-- So the VDP answers it the same (R126). -/
theorem Abreast.vdpAnswer : vdpAnswer u = vdpAnswer v := by
  obtain ⟨strobed, mode⟩ := h.lines
  obtain ⟨_, _, _, same⟩ := h.beside.same
  have attached : u.vdp = v.vdp := by rw [same]
  have contends (w : RefVdp) : contended u w = contended v w := by rw [same]; rfl
  simp only [Machine.vdpAnswer, strobed, mode, attached, contends]

theorem Abreast.dinByte : dinByte u = dinByte v := by
  obtain ⟨_, _, _, same⟩ := h.beside.same
  have free : anyByte u = anyByte v := by rw [same]; rfl
  rw [Machine.dinByte, Machine.dinByte, h.vdpAnswer, free]

/-- A sample is the same frame in both runs, or in neither (R132). -/
theorem Abreast.frameAt_sampD (b : Byte) : u.walk.frameAt (.sampD b) = v.walk.frameAt (.sampD b) := by
  obtain ⟨strobed, mode⟩ := h.lines
  have mode' : u.walk.modeAsserted u.walk.ctrl = v.walk.modeAsserted v.walk.ctrl := mode
  simp only [Walk.frameAt, strobed, mode']

/-- Each step is the same frame in both runs, or in neither (R132). -/
theorem Abreast.frame (op : MicroOp) : op.frame u = op.frame v := by
  have level (role : Role) : assertLevel u.params role = assertLevel v.params role := by rw [h.bus.params]
  cases op with
  | assertLine role =>
    change _ = v.walk.frameAt (.ctrl (withBit v.ctrlOut (v.roleIndex role) (assertLevel v.params role)))
    rw [← level role]
    exact h.frameAt_driveLine role _
  | deassertLine role =>
    change _ = v.walk.frameAt (.ctrl (withBit v.ctrlOut (v.roleIndex role) (!assertLevel v.params role)))
    rw [← level role]
    exact h.frameAt_driveLine role _
  | sampleData =>
    change _ = v.walk.frameAt (.sampD (Machine.dinByte v))
    rw [← h.dinByte]
    exact h.frameAt_sampD _
  | _ => rfl

/-- Driving a line leaves the two runs apart only in the control port and the trace. -/
theorem Abreast.beside_driveLine (role : Role) (level : Bool) :
    Beside (driveLine role level u) (driveLine role level v) := by
  have vdp := vdpAfter_congr (h.frameAt_driveLine role level) u.vdp
  obtain ⟨⟨_, _, _, same⟩, arst⟩ := h.beside
  refine ⟨⟨(driveLine role level v).ctrlOut, v.ctrlDir, (driveLine role level v).trace, ?_⟩, arst⟩
  rw [driveLine, driveLine, writeCtrl, writeCtrl, vdp, same]

/-- A sample leaves the two runs apart only there. -/
theorem Abreast.beside_sampleData : Beside (sampleData u) (sampleData v) := by
  have byte := h.dinByte
  have vdp := vdpAfter_congr (h.frameAt_sampD (Machine.dinByte v)) u.vdp
  have script : dinScriptAfter v = dinScriptAfter u := by
    obtain ⟨_, _, _, same⟩ := h.beside.same
    simp only [dinScriptAfter, h.vdpAnswer, same]
  obtain ⟨⟨_, _, _, same⟩, arst⟩ := h.beside
  refine ⟨⟨v.ctrlOut, v.ctrlDir, (sampleData v).trace, ?_⟩, arst⟩
  rw [sampleData, sampleData, byte, vdp, script, same]

/-- Each step leaves the two runs apart only there. -/
theorem Abreast.beside_perform (op : MicroOp) : Beside (perform op u) (perform op v) := by
  have level (role : Role) : assertLevel v.params role = assertLevel u.params role := by rw [h.bus.params]
  cases op with
  | assertLine role =>
    rw [perform, perform, assertOp, assertOp, level]
    exact h.beside_driveLine role _
  | deassertLine role =>
    rw [perform, perform, deassertOp, deassertOp, level]
    exact h.beside_driveLine role _
  | sampleData => exact h.beside_sampleData
  | _ =>
    obtain ⟨⟨_, _, _, rfl⟩, arst⟩ := h.beside
    exact ⟨⟨_, _, _, rfl⟩, arst⟩

/-- Each step that gives no pin a role keeps the two runs abreast. -/
theorem Abreast.perform {op : MicroOp} (hop : .pins ∉ op.parts) : Abreast s (perform op u) (perform op v) := by
  obtain ⟨configured, csr, csw, mode, reset, int, -⟩ := (agree_perform hop v).pins
  obtain ⟨fs, seen, seen'⟩ := h.frames
  refine ⟨h.beside_perform op, h.bus.perform_fixed hop, configured.trans h.configured,
    h.pins.of_eq csr csw mode reset int, fs ++ (op.frame v).toList, ?_, seen'.perform hop⟩
  rw [← h.frame op]
  exact seen.perform hop

/-- A host write to the control port is no frame, and moves no line (R134, R135, R325). -/
theorem Abreast.landInput {i : Input} (hi : i.IsPortWrite) : Abreast s (landInput i u) v := by
  have arst := h.beside.arst
  have noReset : i ≠ .arst true := by
    rintro rfl
    simp [Input.IsPortWrite] at hi
  have moves := landInput_sameBus i u (h.bus.configured.trans h.configured) noReset
  obtain ⟨fs, seen, seen'⟩ := h.frames
  refine ⟨h.beside.landInput hi, moves.trans h.bus, h.configured, h.pins, fs, ?_, seen'⟩
  obtain rfl | ⟨mask, val, rfl⟩ | ⟨mask, val, rfl⟩ := hi
  · exact seen
  · rw [landInput_ctrlWrite arst]
    exact seen.silent (frameAt_hostCtrlWrite u mask val) rfl rfl
  · rw [landInput_ctrlDirWrite arst]
    exact seen.silent (e := .ctrlDir _) rfl rfl rfl

/-- So the same steps, run to their end or into the window wait, keep them abreast. -/
theorem Abreast.runOps {ops : List MicroOp} (fixed : ∀ op ∈ ops, .pins ∉ op.parts)
    (writes : ∀ i ∈ u.inputs, i.IsPortWrite) : Abreast s (runOps ops u) (runOps ops v) := by
  refine runOps_relates_beside (fun _ _ h => h.beside) (fun _ _ _ hi h => h.landInput hi) ?inputs ?todo
    (fun op ho _ _ h => h.perform (fixed op ho)) h writes
  case inputs =>
    intro u v l h
    obtain ⟨fs, seen, seen'⟩ := h.frames
    exact ⟨h.beside.withInputs l, { h.bus with }, h.configured, h.pins, fs, seen.still rfl rfl, seen'⟩
  case todo =>
    intro u v l h
    obtain ⟨fs, seen, seen'⟩ := h.frames
    exact ⟨h.beside.withTodo l, { h.bus with }, h.configured, h.pins.of_bus rfl, fs, seen.still rfl rfl,
      seen'.still rfl rfl⟩

/-- The two runs differ as R325 allows. -/
theorem Abreast.frames_and_state : Expected.seenFrames s u = Expected.seenFrames s v ∧
    { u with ctrlOut := v.ctrlOut, ctrlDir := v.ctrlDir, trace := v.trace, inputs := v.inputs } = v := by
  obtain ⟨fs, seen, seen'⟩ := h.frames
  exact ⟨seen.seenFrames.trans seen'.seenFrames.symm, h.beside.eq⟩

end

/-- At the start of a command, or of the rest of one, of a configured adapter. -/
theorem abreast_start {s : State} (configured : s.configured = true) (pins : PinsWf s) (arst : s.arst = false)
    (busy : Bool) (l : List Input) : Abreast s { s with inputs := l, busy } { s with inputs := [], busy } where
  beside := ⟨⟨_, _, _, rfl⟩, arst⟩
  bus := { SameBus.refl s with }
  configured := configured
  pins := pins.of_bus rfl
  frames := ⟨[], ⟨[], rfl, rfl, rfl⟩, ⟨[], rfl, rfl, rfl⟩⟩

/-! ## Before CFG_PINS -/

/-- Before CFG_PINS a command shows no frame, whatever the host writes (R325; log 10). -/
theorem seenFrames_unconfigured {s : State} (configured : s.configured = false) (i : Instr) {u : State}
    (start : OnlyPortWrites s u) (ha : u.arst = false) :
    Expected.seenFrames s (Machine.runOps (stepsOf s i) u) = [] := by
  have run := (standing_onlyPortWrites s).runOps start ha (ops := stepsOf s i) ?_
  · obtain held | ⟨es, trace, writes⟩ := run
    · rw [Expected.seenFrames, newEvents_of_held s held]
      rfl
    · rw [seenFrames_eq, newEvents_eq es trace]
      exact frames_of_portWrites configured writes _
  · rintro op ho v ⟨es, trace, writes⟩
    exact ⟨es, (agree_perform (bus_ports_not_mem_stepsOf configured i op ho).1 v).bus.1.trans trace, writes⟩

/-- Settles O20: once the roles are fixed the two runs are abreast along every step; before that there are no frames,
and no step reads the port. -/
theorem hostWritesChangeNoFrame : Obligations.HostWritesChangeNoFrame := by
  intro l writes same
  refine ⟨fun i s t t' arst pins e e' => ?command, fun s t t' h busy e e' => ?rest⟩
  case command =>
    rw [exec_eq_execute, stepsOf_withInputs] at e e'
    cases e
    cases e'
    obtain configured | configured := Bool.eq_false_or_eq_true s.configured
    · exact ((abreast_start configured (pins configured) arst true l).runOps (pins_not_mem_stepsOf configured i)
        writes).frames_and_state
    · have steps := bus_ports_not_mem_stepsOf configured i
      have start : Beside { s with inputs := l, busy := true } { s with inputs := [], busy := true } :=
        ⟨⟨_, _, _, rfl⟩, arst⟩
      have ends := runOps_relates_beside (R := Beside) (fun _ _ h => h) (fun _ _ _ hi h => h.landInput hi)
        (fun _ _ l h => h.withInputs l) (fun _ _ l h => h.withTodo l)
        (fun op ho _ _ h => h.perform_off_bus (steps op ho).1 (steps op ho).2) start writes
      have noFrames (l : List Input) :
          Expected.seenFrames s (runOps (stepsOf s i) { s with inputs := l, busy := true }) = [] :=
        seenFrames_unconfigured configured i ⟨[], rfl, nofun⟩ arst
      exact ⟨(noFrames l).trans (noFrames []).symm, ends.eq⟩
  case rest =>
    have arst : s.arst = false := Bool.eq_false_iff.mpr fun held =>
      absurd ((congrArg State.busy (h.held held)).symm.trans busy) Bool.false_ne_true
    have configured := h.ports (h.ports_of_busy busy)
    have resumes (l : List Input) : step { s with inputs := l } = .next (runOps s.todo { s with inputs := l }) :=
      step_of_busy (s := { s with inputs := l }) busy arst
    rw [resumes] at e e'
    cases e
    cases e'
    exact ((abreast_start configured (h.pins configured) arst s.busy l).runOps
      ((h.within_todo busy).not_mem (by decide)) writes).frames_and_state

end Sys2Proof.Machine

/-! The number of events of each command, counted along its steps (R331). -/

namespace Sys2Proof.Machine

open Sys2Proof.Expected

/-! ## Counting events -/

/-- Whether a step of the pseudocode appends an event: those that write the bus do (R120). -/
def MicroOp.eventful (op : MicroOp) : Bool := .bus ∈ op.parts

theorem isSome_event (op : MicroOp) (s : State) : (op.event s).isSome = op.eventful := by
  cases op with
  | noop bulk => cases bulk <;> rfl
  | _ => rfl

/-- A sample of the INT pin is the event of a window wait, and of no other step (R127). -/
theorem isIntSample_event {op : MicroOp} (hop : op ≠ .windowWait) {s : State} {e : Event} (h : op.event s = some e) :
    isIntSample e = false := by
  cases op with
  | windowWait => exact absurd rfl hop
  | _ => cases h <;> rfl

/-- From `s` to `t` the trace has grown by `n` events, `w` of them samples of the INT pin. -/
def Grows (s t : State) (n w : Nat) : Prop :=
  ∃ es : List Event, t.trace = es.reverse ++ s.trace ∧ es.length = n ∧ (es.filter isIntSample).length = w

theorem Grows.of_trace {s t : State} (h : t.trace = s.trace) : Grows s t 0 0 := ⟨[], h, rfl, rfl⟩

theorem Grows.trans {s t u : State} {n w n' w' : Nat} (h : Grows s t n w) (h' : Grows t u n' w') :
    Grows s u (n + n') (w + w') := by
  obtain ⟨es, trace, rfl, rfl⟩ := h
  obtain ⟨es', trace', rfl, rfl⟩ := h'
  exact ⟨es ++ es', by rw [trace', trace]; simp, List.length_append, by rw [List.filter_append, List.length_append]⟩

/-- The new events of a state, counted. -/
theorem Grows.newEvents {s t : State} {n w : Nat} (h : Grows s t n w) :
    (newEvents s t).length = n ∧ ((newEvents s t).filter isIntSample).length = w := by
  obtain ⟨es, trace, rfl, rfl⟩ := h
  rw [newEvents_eq es trace]
  exact ⟨rfl, rfl⟩

/-- A step that is no window wait. -/
theorem grows_perform {op : MicroOp} (hop : op ≠ .windowWait) (s : State) :
    Grows s (perform op s) (if op.eventful then 1 else 0) 0 := by
  have trace := perform_trace op s
  rw [← isSome_event op s]
  cases h : op.event s with
  | none =>
    rw [h] at trace
    exact .of_trace trace
  | some e =>
    rw [h] at trace
    exact ⟨[e], trace, rfl, by rw [List.filter_cons_of_neg (by simp [isIntSample_event hop h])]; rfl⟩

/-- The number of events of a list of steps. -/
def eventCount (ops : List MicroOp) : Nat := ops.countP MicroOp.eventful

@[simp] theorem eventCount_nil : eventCount [] = 0 := rfl

@[simp] theorem eventCount_cons (op : MicroOp) (ops : List MicroOp) :
    eventCount (op :: ops) = (if op.eventful then 1 else 0) + eventCount ops :=
  List.countP_cons.trans (Nat.add_comm _ _)

@[simp] theorem eventCount_append (a b : List MicroOp) : eventCount (a ++ b) = eventCount a + eventCount b :=
  List.countP_append

theorem grows_performAll {ops : List MicroOp} (noWait : .windowWait ∉ ops) (s : State) :
    Grows s (performAll ops s) (eventCount ops) 0 := by
  induction ops generalizing s with
  | nil => exact .of_trace rfl
  | cons op ops ih =>
    obtain ⟨hop, noWait⟩ := not_or.mp (mt List.mem_cons.mpr noWait)
    rw [eventCount_cons]
    exact (grows_perform (Ne.symm hop) s).trans (ih noWait _)

/-- Steps that nothing interrupts, without a window wait. -/
theorem grows_runOps {ops : List MicroOp} (noWait : .windowWait ∉ ops) {s : State} (hi : hostWaits s.inputs = true)
    (ha : s.arst = false) : Grows s (runOps ops s) (eventCount ops) 0 := by
  rw [runOps_quiet hi ha noWait]
  exact (grows_performAll noWait s).trans (.of_trace rfl)

/-! ## The events of the shared sequences -/

@[simp] theorem eventCount_frame2 (variant : SeqVariant) (b1 b2 : Byte) : eventCount (frame2 variant b1 b2) = 8 := by
  cases variant <;> rfl

@[simp] theorem eventCount_statusRead (variant : SeqVariant) : eventCount (statusRead variant) = 7 := by
  cases variant <;> rfl

/-- Framing pairs one after another. -/
theorem eventCount_programRegisters (variant : SeqVariant) (rs : List (BitVec 3 × Byte)) :
    eventCount (rs.flatMap fun rv => programRegister variant rv.1 rv.2) = rs.length * 8 := by
  induction rs with
  | nil => rfl
  | cons r rs ih =>
    rw [List.flatMap_cons, eventCount_append, ih, programRegister, eventCount_frame2, List.length_cons]
    omega

/-- Eight register writes for a mode, or five in Text (R167, R168). -/
theorem length_modeTable (c : Params) (m : Mode) (r1 colour : Byte) (b : TableBases) :
    (modeTable c m r1 colour b).length = if m = .text then 5 else 8 := by
  unfold modeTable
  split <;> rfl

theorem eventCount_applyMode (c : Params) (variant : SeqVariant) (m : Mode) (r1 colour : Byte) (b : TableBases) :
    eventCount (applyMode c variant m r1 colour b) = (if m = .text then 5 else 8) * 8 := by
  rw [applyMode, eventCount_append, eventCount_programRegisters, length_modeTable]
  rfl

/-- Four events a byte, and a delay before every byte but the first of an unpaced burst (R194, R195, R198). -/
theorem eventCount_byteLoop {byte : List MicroOp} (four : eventCount byte = 4) (paced : Bool) (n : Nat) :
    eventCount (byteLoop paced byte n) = 4 * n + if paced then 0 else n - 1 := by
  induction n with
  | zero => cases paced <;> rfl
  | succ n ih =>
    have steps : eventCount (byteSteps paced byte n) = 4 + if paced = false ∧ 0 < n then 1 else 0 := by
      rw [byteSteps, eventCount_cons, eventCount_append, four]
      cases paced <;> by_cases hn : 0 < n <;> simp [hn, MicroOp.eventful, MicroOp.parts]
    rw [byteLoop_succ, eventCount_append, ih, steps]
    cases paced with
    | true => simp; omega
    | false => simp; split <;> omega

/-- A burst: its bytes and the status read (R194, R195, R199). -/
theorem eventCount_burst {byte : List MicroOp} (four : eventCount byte = 4) (variant : SeqVariant) (paced : Bool)
    (n l : BitVec 16) :
    eventCount (burstOps variant paced n l byte ++ [.finish .count]) =
      4 * n.toNat + (if paced then 0 else n.toNat - 1) + 7 := by
  simp [burstOps, eventCount_byteLoop four, MicroOp.eventful, MicroOp.parts]

/-! ## Commands without a window wait -/

/-- A command that is no bulk command and that nothing interrupts has the events of its body (R102, R331). -/
theorem length_newEvents_exec {i : Instr} {s t : State} (quiet : Quiet s) (e : exec i s = .next t)
    (holds : guardHolds s i = true) (noBulk : isBulk i = false) : (newEvents s t).length = eventCount (bodyOf s i) := by
  have noWait : .windowWait ∉ bodyOf s i := fun wait =>
    absurd (noBulk.symm.trans (isBulk_of_windowWait_mem_bodyOf wait).1) Bool.false_ne_true
  rw [exec_eq_execute, stepsOf, if_pos holds] at e
  cases e
  have grows := grows_runOps (ops := bodyOf s i ++ [.finish (resultOf i)]) (s := { s with busy := true })
    (by simpa using noWait) quiet.inputs quiet.arst
  have ends : eventCount (bodyOf s i ++ [.finish (resultOf i)]) = eventCount (bodyOf s i) := eventCount_append _ _
  rw [← ends]
  exact (Grows.newEvents (s := s) grows).1

/-- A command that leaves the bus alone has no event (R331). -/
theorem newEvents_of_off_bus {i : Instr} {s t : State} (quiet : Quiet s) (bus : .bus ∉ partsOf i)
    (e : exec i s = .next t) : newEvents s t = [] :=
  newEvents_eq [] (agree_exec_quiet quiet e bus).bus.1

/-- A mode code names a mode, and 3 is Text (R109). -/
theorem modeOfCode_legal {md : BitVec 3} (h : md.toNat ≤ 3) :
    ∃ m, modeOfCode md = some m ∧ (m = .text ↔ md = 3) := by
  revert md; decide

/-- SET_MODE and INIT_DEVICE for a legal mode (R170, R171). -/
theorem eventCount_modeCommands {s : State} {md : BitVec 3} (h : md.toNat ≤ 3) (flags : BitVec 8) (txt bg : BitVec 4) :
    eventCount (bodyOf s (.setMode md)) = (if md = 3 then 5 * 8 else 8 * 8) ∧
      eventCount (bodyOf s (.initDevice md flags txt bg)) = if md = 3 then 5 * 8 else 8 * 8 := by
  obtain ⟨m, named, text⟩ := modeOfCode_legal h
  have events (r1 colour : Byte) :
      eventCount (applyMode s.params s.seqVariant m r1 colour s.tbase) = if md = 3 then 5 * 8 else 8 * 8 := by
    rw [eventCount_applyMode, ite_mul]
    simp only [text]
  simp only [bodyOf, named, Option.elim_some, initDeviceOps]
  exact ⟨events _ _, events _ _⟩

/-! ## Bulk commands -/

/-- The effective count of a paced burst (R192). -/
theorem toNat_effectiveCount_paced (c : Params) (l : BitVec 16) :
    (effectiveCount c true l).toNat = min l.toNat c.budget.toNat := by
  rw [effectiveCount, if_pos rfl]
  split
  next h => exact (Nat.min_eq_left (BitVec.le_def.mp h)).symm
  next h => exact (Nat.min_eq_right (BitVec.lt_def.mp (BitVec.not_le.mp h)).le).symm

/-- With the gate open a bulk command that nothing interrupts comes to its window wait, with no event yet (R190,
R193). -/
theorem execute_bulk_paced {s : State} (hq : Quiet s) (hg : gate s = true) (l : BitVec 16) (byte : List MicroOp) :
    execute (bulkOps s l byte ++ [.finish .count]) s =
      .next (runOps (waitingOps s l byte) { s with busy := true, p := true, waitInt := true }) := by
  rw [bulkOps_paced hg, execute]
  exact congrArg Host.Outcome.next (runOps_append_quiet (a := [.setPace true, .enterWait]) _
    (s := { s with busy := true }) hq.inputs hq.arst (by simp))

section

variable {byte : List MicroOp} (four : eventCount byte = 4) (noWait : .windowWait ∉ byte)

/-- With a single window wait at their front, the steps of a burst have none. -/
theorem windowWait_not_mem_burstOps (noWait : .windowWait ∉ byte) (variant : SeqVariant) (paced : Bool)
    (n l : BitVec 16) : .windowWait ∉ burstOps variant paced n l byte := by
  simp [burstOps, windowWait_not_mem_byteLoop paced noWait, windowWait_not_mem_statusRead]

include four noWait

/-- An unpaced burst (R198, R331). -/
theorem grows_bulk_unpaced {s t : State} (quiet : Quiet s) (hg : gate s = false) {l : BitVec 16}
    (e : execute (bulkOps s l byte ++ [.finish .count]) s = .next t) :
    Grows s t (4 * l.toNat + (l.toNat - 1) + 7) 0 := by
  have steps : bulkOps s l byte ++ [.finish .count] =
      .setPace false :: (burstOps s.seqVariant false l l byte ++ [.finish .count]) := by
    simp [bulkOps, hg, windowWait, effectiveCount]
  rw [steps] at e
  cases e
  have count : eventCount (.setPace false :: (burstOps s.seqVariant false l l byte ++ [.finish .count])) =
      4 * l.toNat + (l.toNat - 1) + 7 := eventCount_burst four s.seqVariant false l l
  rw [← count]
  exact grows_runOps (s := { s with busy := true })
    (by simpa using windowWait_not_mem_burstOps noWait s.seqVariant false l l) quiet.inputs quiet.arst

/-- A window wait that finds the level: its sample, and the burst (R193, R200, R331). -/
theorem grows_waitingOps (s : State) {v : State} (quiet : Quiet v) (level : intLevel v = v.params.intWaitLevel)
    (l : BitVec 16) :
    Grows v (runOps (waitingOps s l byte) v) (1 + 4 * min l.toNat s.params.budget.toNat + 7) 1 := by
  rw [waitingOps, runOps_windowWait_level _ quiet level]
  have sample : Grows v (pollInt v) 1 1 := ⟨[.sampI (intLevel v)], rfl, rfl, rfl⟩
  have burst := grows_runOps (s := pollInt v)
    (ops := burstOps s.seqVariant true (effectiveCount s.params true l) l byte ++ [.finish .count])
    (by simpa using windowWait_not_mem_burstOps noWait _ _ _ _) quiet.inputs quiet.arst
  rw [eventCount_burst four, toNat_effectiveCount_paced] at burst
  have all := sample.trans burst
  simpa [Nat.add_assoc] using all

end

/-! ## A window wait of any length -/

/-- A paced bulk command that started in `s`, with nothing placed along it: in its window wait after samples alone, or
at its end, its bytes moved after at least one sample (R193, R331). -/
inductive Pacing (s : State) (l : BitVec 16) (byte : List MicroOp) (v : State) : Prop
  | waits (n : Nat) (busy : v.busy = true) (arst : v.arst = false) (inputs : v.inputs = [])
      (todo : v.todo = waitingOps s l byte) (grown : Grows s v n n)
  | ended (w : Nat) (busy : v.busy = false) (inputs : v.inputs = []) (sampled : 1 ≤ w)
      (grown : Grows s v (w + 4 * min l.toNat s.params.budget.toNat + 7) w)

/-- One pass of the window wait: the level is there and the burst runs, or the wait goes on with one more sample
(R193). -/
theorem pacing_runOps {byte : List MicroOp} (four : eventCount byte = 4) (noWait : .windowWait ∉ byte) {s v : State}
    {l : BitVec 16} {n : Nat} (busy : v.busy = true) (arst : v.arst = false) (inputs : v.inputs = [])
    (grown : Grows s v n n) : Pacing s l byte (runOps (waitingOps s l byte) v) := by
  have waits : hostWaits v.inputs = true := by rw [inputs]; rfl
  by_cases level : intLevel v = v.params.intWaitLevel
  · have grows := grown.trans (grows_waitingOps four noWait s ⟨waits, arst⟩ level l)
    have burst := windowWait_not_mem_burstOps noWait s.seqVariant true (effectiveCount s.params true l) l
    have run : runOps (waitingOps s l byte) v = runOps
        (burstOps s.seqVariant true (effectiveCount s.params true l) l byte ++ [.finish .count]) (pollInt v) :=
      runOps_windowWait_level _ ⟨waits, arst⟩ level
    obtain ⟨idle, -, -⟩ := runOps_finish_quiet (s := pollInt v) .count waits arst burst
    have left : (runOps (waitingOps s l byte) v).inputs = [] := by
      rw [run, runOps_quiet (s := pollInt v) waits arst (by simpa using burst)]
      exact (performAll_inputs _ _).trans inputs
    refine .ended (n + 1) (by rw [run]; exact idle) left (Nat.le_add_left 1 n) ?_
    simpa only [Nat.add_assoc] using grows
  · rw [waitingOps, runOps_windowWait_quiet _ waits arst, if_neg level]
    exact .waits (n + 1) busy arst inputs rfl (grown.trans ⟨[.sampI (intLevel v)], rfl, rfl, rfl⟩)

/-- An idle adapter with nothing that lands stays as it is (R71). -/
theorem step_idle {v : State} (busy : v.busy = false) (inputs : v.inputs = []) : step v = .next v := by
  simp [step, turn, busy, inputs]

theorem Pacing.step {byte : List MicroOp} (four : eventCount byte = 4) (noWait : .windowWait ∉ byte) {s v v' : State}
    {l : BitVec 16} (h : Pacing s l byte v) (e : step v = .next v') : Pacing s l byte v' := by
  cases h with
  | waits n busy arst inputs todo grown =>
    rw [step_of_busy busy arst, todo] at e
    cases e
    exact pacing_runOps four noWait busy arst inputs grown
  | ended w busy inputs sampled grown =>
    rw [step_idle busy inputs] at e
    cases e
    exact .ended w busy inputs sampled grown

/-- Every step answers a next state (R280). -/
theorem step_answers (u : State) : ∃ v, step u = .next v := by
  unfold step
  split
  next => exact ⟨_, rfl⟩
  next => exact ⟨_, rfl⟩
  next => exact ⟨_, startCommand_eq _ _⟩

/-- A run goes on from the state its first step answers. -/
theorem run_succ (M : Host.Core) {u v : M.State} (h : M.step u = .next v) (k : Nat) : M.run (k + 1) u = M.run k v := by
  rw [Host.Core.run, h]

/-- A property that every step keeps holds after any number of them. -/
theorem run_keeps {P : State → Prop} (keep : ∀ u v, P u → step u = .next v → P v) (k : Nat) {u t : State} (h : P u)
    (e : core.run k u = .next t) : P t := by
  induction k generalizing u with
  | zero =>
    cases e
    exact h
  | succ k ih =>
    obtain ⟨v, hv⟩ := step_answers u
    exact ih (keep u v h hv) ((run_succ core hv k).symm.trans e)

/-- What a bulk command with legal lengths runs, its byte having four events (R194, R195). -/
theorem bulk_steps {s u : State} (hr : Ready s) {h l m : BitVec 16} (hl : 1 ≤ l.toNat) (hm : 1 ≤ m.toNat)
    (e : exec (.bulkWrite h l m) s = .next u ∨ exec (.bulkRead h l m) s = .next u) :
    ∃ byte, eventCount byte = 4 ∧ .windowWait ∉ byte ∧ execute (bulkOps s l byte ++ [.finish .count]) s = .next u := by
  obtain ⟨write, read⟩ := guardHolds_bulk hr hl hm h
  obtain e | e := e
  · rw [exec_eq_execute, stepsOf, if_pos write] at e
    exact ⟨_, rfl, windowWait_not_mem_writeByte h m, e⟩
  · rw [exec_eq_execute, stepsOf, if_pos read] at e
    exact ⟨_, rfl, windowWait_not_mem_readByte h m, e⟩

/-- Settles O43: a step that writes the bus is one event, so each command has as many as its body has such steps; each
pass of the window wait is one sample. -/
theorem eventCountsAreFixed : Obligations.EventCountsAreFixed := by
  refine ⟨fun i s t quiet op e => ?offBus, fun s t quiet configured e => ?initPorts, fun s hr =>
    ⟨fun i t op e => ?onePair, fun idx val t legal e => ?setRegRaw, fun t e => ?readStatus,
      fun md flags txt bg t legal e => ?modes, fun h l m u hl hm e => ?bulk⟩⟩
  case offBus => exact newEvents_of_off_bus quiet (fun bus => (bus_mem_partsOf i).mp bus op) e
  case initPorts => exact length_newEvents_exec quiet e configured rfl
  all_goals have ready : (s.configured && s.portsInit) = true := by rw [hr.configured, hr.portsInit]; rfl
  case onePair =>
    cases i with
    | setBlank | setIrqEnable | setSpriteSize | setSpriteMag | setTextColor | setBgColor | setAddr =>
      rw [length_newEvents_exec hr.quiet e ready rfl]
      exact eventCount_frame2 _ _ _
    | _ => simp [Instr.opcode] at op
  case setRegRaw =>
    have legalIdx : guardHolds s (.setRegRaw idx val) = true := by
      simp [guardHolds, ready, Instr.WellFormed, Instr.registerLegal, legal]
    rw [length_newEvents_exec hr.quiet e legalIdx rfl, bodyOf, registerOfIndex, if_pos legal]
    exact eventCount_frame2 _ _ _
  case readStatus =>
    rw [length_newEvents_exec hr.quiet e ready rfl, bodyOf, eventCount_append, eventCount_statusRead]
    rfl
  case modes =>
    obtain ⟨setMode, initDevice⟩ := eventCount_modeCommands (s := s) legal flags txt bg
    obtain e | e := e
    · rw [length_newEvents_exec hr.quiet e ?_ rfl, setMode]
      simp [guardHolds, ready, Instr.WellFormed, Instr.modeLegal, legal]
    · rw [length_newEvents_exec hr.quiet e ?_ rfl, initDevice]
      simp [guardHolds, ready, Instr.WellFormed, Instr.modeLegal, legal]
  case bulk =>
    obtain ⟨byte, four, noWait, e⟩ := bulk_steps hr hl hm e
    refine ⟨fun hg => (grows_bulk_unpaced four noWait hr.quiet hg e).newEvents.1, fun hg level => ?atOnce,
      fun hg inputs k t run idle => ?waiting⟩
    all_goals
      rw [execute_bulk_paced hr.quiet hg] at e
      cases e
    case atOnce =>
      have grows := grows_waitingOps four noWait s (v := { s with busy := true, p := true, waitInt := true })
        ⟨hr.quiet.inputs, hr.quiet.arst⟩ level l
      exact (Grows.newEvents (s := s) grows).1
    case waiting =>
      have start : Pacing s l byte (runOps (waitingOps s l byte) { s with busy := true, p := true, waitInt := true }) :=
        pacing_runOps four noWait rfl hr.quiet.arst inputs (.of_trace rfl)
      cases run_keeps (fun _ _ => Pacing.step four noWait) k start run with
      | waits n busy => exact absurd (idle.symm.trans busy) Bool.false_ne_true
      | ended w _ _ sampled grown =>
        obtain ⟨events, samples⟩ := grown.newEvents
        rw [samples, events]
        exact ⟨sampled, rfl⟩

end Sys2Proof.Machine

/-! The register programmer: the scaled bases, ProgramRegister and ApplyMode as framing pairs, and the three commands that
send them (R160-R171). -/

namespace Sys2Proof.Machine

open Sys2Proof.Expected

/-! ## The scaled bases -/

/-- A base has 14 bits and a register 8: every scale drops the six bits too many, and none drops them all (R8, R161). -/
theorem Table.scale_bounds (t : Table) : 6 ≤ t.scale ∧ t.scale ≤ 14 := by
  cases t <;> decide

theorem toNat_base_shiftRight_lt (b : TableBases) (t : Table) : (b.get t).toNat / 2 ^ t.scale < 2 ^ (14 - t.scale) := by
  rw [Nat.div_lt_iff_lt_mul (Nat.two_pow_pos _), ← Nat.pow_add, Nat.sub_add_cancel t.scale_bounds.2]
  exact (b.get t).isLt

/-- `scaled(t)` as a number: nothing is lost in the narrowing to eight bits (R161). -/
theorem toNat_scaled (b : TableBases) (t : Table) : (scaled b t).toNat = (b.get t).toNat / 2 ^ t.scale := by
  have fits : (b.get t).toNat / 2 ^ t.scale < 2 ^ 8 :=
    (toNat_base_shiftRight_lt b t).trans_le (Nat.pow_le_pow_right (by decide) (by have := t.scale_bounds; omega))
  rw [scaled, BitVec.toNat_setWidth, BitVec.toNat_ushiftRight, Nat.shiftRight_eq_div_pow, Nat.mod_eq_of_lt fits]

/-- The bits a scaled base keeps (R161). -/
theorem toNat_scaled_lt (b : TableBases) (t : Table) : (scaled b t).toNat < 2 ^ (14 - t.scale) :=
  (toNat_scaled b t).trans_lt (toNat_base_shiftRight_lt b t)

/-- Settles O26: the two facts about a scaled base, for each of the five tables. -/
theorem scaledBasesFitTheirRegisters : Obligations.ScaledBasesFitTheirRegisters := by
  intro b
  have bound (t : Table) : (scaled b t).toNat ≤ 2 ^ (14 - t.scale) - 1 := Nat.le_pred_of_lt (toNat_scaled_lt b t)
  exact ⟨toNat_scaled b .name, bound .name, toNat_scaled b .colour, bound .colour, toNat_scaled b .pattern,
    bound .pattern, toNat_scaled b .spriteAttribute, bound .spriteAttribute, toNat_scaled b .spritePattern,
    bound .spritePattern⟩

/-! ## Guards with a bounded operand -/

theorem Ready.gReady {s : State} (hr : Ready s) : gReady s = true := by
  rw [Machine.gReady, hr.configured, hr.portsInit]
  rfl

/-- A guard that asks for an operand of at most `k` (R92, R106). -/
theorem guard_atMost_eq_false {g : Bool} {n k : Nat} (fails : g = false ∨ k < n) : (g && decide (n ≤ k)) = false := by
  rw [Bool.and_eq_false_iff, decide_eq_false_iff_not]
  exact fails.imp_right Nat.not_le.mpr

/-! ## SET_REG_RAW -/

/-- The tag of a register named by its index operand (R160, R169). -/
theorem tagByte_setWidth {idx : BitVec 8} (legal : idx.toNat ≤ 7) : tagByte (idx.setWidth 3) = 0x80#8 ||| idx := by
  have same : (idx.setWidth 3).setWidth 8 = idx := by
    apply BitVec.eq_of_toNat_eq
    rw [BitVec.toNat_setWidth, BitVec.toNat_setWidth]
    omega
  exact congrArg (0x80#8 ||| ·) same

/-- Settles O23: SET_REG_RAW is one framing pair, of the value and the tag byte. -/
theorem setRegRawProgramsOneRegister : Obligations.SetRegRawProgramsOneRegister := by
  intro s idx val
  refine ⟨fun ready legal => ?sends, fun quiet fails => ?noop⟩
  case sends =>
    have named : registerOfIndex idx = some (idx.setWidth 3) := if_pos legal
    simp only [exec, execSetRegRaw, named, programRegister]
    rw [command_pair ready, tagByte_setWidth legal]
  case noop => exact failedGuardIsASilentNoop (.setRegRaw idx val) s quiet (guard_atMost_eq_false fails)

/-! ## ApplyMode -/

/-- The mode codes of R109 name the four modes of the register table. -/
theorem modeOfCode_of_mem {md : BitVec 3} {m : Mode}
    (h : (md, m) ∈ [(0#3, Mode.graphicsI), (1#3, .graphicsII), (2#3, .bitmap), (3#3, .text)]) :
    modeOfCode md = some m ∧ m ≠ .uninitialized := by
  have each : ∀ p ∈ [(0#3, Mode.graphicsI), (1#3, .graphicsII), (2#3, .bitmap), (3#3, .text)],
      modeOfCode p.1 = some p.2 ∧ p.2 ≠ .uninitialized := by decide
  exact each _ h

/-- ApplyMode's register writes are the mode's column of the register table (R162-R168). -/
theorem map_registerPair_modeTable (c : Params) {m : Mode} (hm : m ≠ .uninitialized) (r1 colour : Byte)
    (b : TableBases) :
    (modeTable c m r1 colour b).map (fun rv => registerPair rv.1 rv.2) = modePairs c m r1 colour b := by
  cases m with
  | uninitialized => exact absurd rfl hm
  | graphicsI | graphicsII | bitmap | text =>
    simp [modeTable, modePairs, registerPair, reg0, reg3, reg4, compose, modeBitsOf, scaled, TableBases.get, Table.scale]

/-- ApplyMode as framing pairs, then `CURMODE <- m` (R160, R167). -/
theorem applyMode_eq_pairs (c : Params) (variant : SeqVariant) {m : Mode} (hm : m ≠ .uninitialized) (r1 colour : Byte)
    (b : TableBases) :
    applyMode c variant m r1 colour b =
      (modePairs c m r1 colour b).flatMap (fun p => frame2 variant p.1 p.2) ++ [.setMode m] := by
  rw [← map_registerPair_modeTable c hm, List.flatMap_map]
  rfl

theorem windowWait_not_mem_applyMode (c : Params) (variant : SeqVariant) (m : Mode) (r1 colour : Byte) (b : TableBases) :
    MicroOp.windowWait ∉ applyMode c variant m r1 colour b := by
  simp [applyMode, programRegister, windowWait_not_mem_frame2]

/-- Framing pairs do not look at BUSY. -/
theorem afterPairs_withBusy (s : State) (busy : Bool) (bs : List (Byte × Byte)) :
    afterPairs { s with busy } bs = { afterPairs s bs with busy } := by
  induction bs generalizing s with
  | nil => rfl
  | cons b bs ih => exact ih (afterPair s b)

/-- ApplyMode from the idle bus (R167). -/
theorem performAll_applyMode {s : State} (configured : s.configured = true) (pins : PinsWf s) (idle : BusIdle s)
    (c : Params) {m : Mode} (hm : m ≠ .uninitialized) (r1 colour : Byte) (b : TableBases) :
    performAll (applyMode c s.seqVariant m r1 colour b) s =
      { afterPairs s (modePairs c m r1 colour b) with curMode := m } := by
  rw [applyMode_eq_pairs c _ hm, performAll_append, performAll_pairs configured pins idle]
  rfl

/-- A command that brings the mirrors to `x` and `y` and then runs ApplyMode with them, from the idle bus (R170, R171). -/
theorem command_applyMode {s : State} (hr : Ready s) {m : Mode} (hm : m ≠ .uninitialized) (x y : Byte)
    {front : List MicroOp} (noWait : .windowWait ∉ front)
    (mirrors : performAll front { s with busy := true } = { s with r1mir := x, colmir := y, busy := true }) :
    command (gReady s) (front ++ applyMode s.params s.seqVariant m x y s.tbase) .zero s =
      .next (done 0
        { afterPairs { s with r1mir := x, colmir := y } (modePairs s.params m x y s.tbase) with curMode := m }) := by
  have apply := performAll_applyMode (s := { s with r1mir := x, colmir := y, busy := true }) hr.configured
    (hr.pins.of_bus rfl) (hr.idle.of_bus rfl) s.params hm x y s.tbase
  have kept := afterPairs_withBusy { s with r1mir := x, colmir := y } true (modePairs s.params m x y s.tbase)
  have noWaitAtAll : .windowWait ∉ front ++ applyMode s.params s.seqVariant m x y s.tbase :=
    List.not_mem_append noWait (windowWait_not_mem_applyMode _ _ _ _ _ _)
  rw [hr.gReady, command_true_quiet hr.quiet .zero noWaitAtAll, performAll_append, mirrors, apply, kept]
  rfl

/-! ## SET_MODE and INIT_DEVICE -/

/-- Settles O24: SET_MODE is ApplyMode with the mirrors as they are. -/
theorem setModePushesTheRegisterTable : Obligations.SetModePushesTheRegisterTable := by
  refine fun s => ⟨fun ready md m code => ?sends, fun quiet md fails => ?noop⟩
  case sends =>
    obtain ⟨named, legal⟩ := modeOfCode_of_mem code
    simp only [exec, execSetMode, named]
    exact command_applyMode ready legal s.r1mir s.colmir (front := []) List.not_mem_nil rfl
  case noop => exact failedGuardIsASilentNoop (.setMode md) s quiet (guard_atMost_eq_false fails)

/-- Settles O25: INIT_DEVICE's two assignments give the mirrors, and ApplyMode follows. -/
theorem initDeviceSetsTheMirrorsAndTheMode : Obligations.InitDeviceSetsTheMirrorsAndTheMode := by
  refine fun s flags txt bg => ⟨fun ready md m code => ?sends, fun quiet md fails => ?noop⟩
  case sends =>
    obtain ⟨named, legal⟩ := modeOfCode_of_mem code
    refine ⟨flags &&& ~~~s.params.r1ModeMask, colourByte s.params txt bg, fun j hj => ?flagBits, rfl, ?run⟩
    case flagBits => simp [hj]
    case run =>
      simp only [exec, execInitDevice, named]
      exact command_applyMode ready legal _ _ (by simp) rfl
  case noop => exact failedGuardIsASilentNoop (.initDevice md flags txt bg) s quiet (guard_atMost_eq_false fails)

end Sys2Proof.Machine

/-! Bulk transfers: the gate and the count, what each burst does, the window wait, and the frames and bytes of a burst
(R190-R202, R324); SET_BLANK, which writes the bit the gate reads (R240, R241). -/

namespace Sys2Proof.Machine

open Sys2Proof.Expected

/-! ## The gate -/

/-- Settles O33: the gate is the irq-enable bit and "not blanked", and the polarity says which level blanks. -/
theorem gateTruthTable : Obligations.GateTruthTable := by
  intro s
  refine ⟨fun off => ?closed, fun on => ⟨fun polarity => ?setMeansDisplay, fun polarity => ?setMeansBlanked⟩⟩
  case closed => rw [gate, off, Bool.false_and]
  case setMeansDisplay => rw [gate, on, polarity, blanked, Bool.not_not, Bool.true_and]
  case setMeansBlanked => rw [gate, on, polarity, blanked, Bool.true_and]

/-! ## SET_BLANK -/

/-- A setter that gives the mirror the value `x` and sends register 1, from the idle bus (R240). -/
theorem command_r1Setter {s : State} (hr : Ready s) (x : Byte) :
    command (gReady s) (r1SetterOps s x) .zero s =
      .next (done 0 (afterPair { s with r1mir := x } (registerPair 1 (setterByte s x)))) := by
  have pair : performAll (r1SetterOps s x) { s with busy := true } =
      afterPair { s with busy := true, r1mir := x } (registerPair 1 (setterByte s x)) :=
    performAll_frame2 (s := { s with busy := true, r1mir := x }) hr.configured (hr.pins.of_bus rfl)
      (hr.idle.of_bus rfl) _ _
  have noWait : .windowWait ∉ r1SetterOps s x := by simp [r1SetterOps, programRegister, windowWait_not_mem_frame2]
  rw [hr.gReady, command_true_quiet hr.quiet .zero noWait, pair]
  rfl

/-- The blank bit SET_BLANK writes makes "blanked" its operand, whatever the polarity (R191, R241). -/
theorem blanked_withBit (c : Params) (pol : BlankPolarity) (x : Byte) (b : Bool) :
    blanked c pol (withBit x c.r1BlankBit.val (blankBitFor pol b)) = b := by
  cases pol with
  | setMeansDisplay => rw [blanked, getLsbD_withBit_same _ _ c.r1BlankBit.isLt, blankBitFor, Bool.not_not]
  | setMeansBlanked => rw [blanked, getLsbD_withBit_same _ _ c.r1BlankBit.isLt, blankBitFor]

/-- Settles O28: SET_BLANK is a setter of the mirror, and the bit it writes is the one the polarity asks for. -/
theorem setBlankMeansBlanked : Obligations.SetBlankMeansBlanked := by
  refine fun s b => ⟨fun ready => ?sends, fun quiet fails => failedGuardIsASilentNoop (.setBlank b) s quiet fails⟩
  refine ⟨_, command_r1Setter ready _, ?written, fun j hj other => getLsbD_withBit_other _ _ hj other,
    blanked_withBit _ _ _ _⟩
  rw [getLsbD_withBit_same _ _ s.params.r1BlankBit.isLt]
  cases s.blankPol <;> rfl

/-! ## The effective count -/

/-- A legal budget is at least 1, fixed or left open (R3). -/
theorem one_le_budget {c : Params} (h : c.Wf) : 1 ≤ c.budget.toNat := by
  rw [Params.budget]
  split
  next b fixed =>
    exact Nat.one_le_iff_ne_zero.mpr fun zero =>
      h.budget (fixed.trans (congrArg some (BitVec.eq_of_toNat_eq (y := 0#16) zero)))
  next =>
    have fits : Config.openBudgetPred.val + 1 < 2 ^ 16 := by omega
    rw [BitVec.toNat_ofNat, Nat.mod_eq_of_lt fits]
    exact Nat.le_add_left 1 _

/-- Settles O34: the paced count is the lesser of two numbers, both at least 1. -/
theorem pacedCountIsCappedByTheBudget : Obligations.PacedCountIsCappedByTheBudget := by
  intro c wf l
  have lesser := toNat_effectiveCount_paced c l
  refine ⟨rfl, lesser, fun one => ?atLeastOne, fun capped => BitVec.eq_of_toNat_eq ?budget⟩
  case atLeastOne => exact lesser ▸ le_min one (one_le_budget wf)
  case budget => rw [lesser, Nat.min_eq_right capped.le]

/-! ## A burst that runs at once -/

/-- Settles O35: with the gate closed the bytes move at once. -/
theorem unpacedWriteMovesEveryByte : Obligations.UnpacedWriteMovesEveryByte :=
  fun _ _ _ _ ready closed hl hm => bulkWrite_of_burstRuns ready hl hm (.inl ⟨closed, nofun, rfl⟩)

/-- Settles O36: so they do for a read. -/
theorem unpacedReadMovesEveryByte : Obligations.UnpacedReadMovesEveryByte :=
  fun _ _ _ _ ready closed hl hm => bulkRead_of_burstRuns ready hl hm (.inl ⟨closed, nofun, rfl⟩)

/-- Settles O37: with the gate open they move after the one sample that finds the level. -/
theorem pacedBurstMovesUpToTheBudget : Obligations.PacedBurstMovesUpToTheBudget :=
  fun _ _ _ _ ready opened hl hm level =>
    ⟨bulkWrite_of_burstRuns ready hl hm (.inl ⟨opened, fun _ => level, rfl⟩),
      bulkRead_of_burstRuns ready hl hm (.inl ⟨opened, fun _ => level, rfl⟩)⟩

/-! ## The window wait -/

/-- A command in its window wait that finds the other level takes its sample and stays where it is (R193). -/
theorem step_waiting_other {s : State} (quiet : Quiet s) (busy : s.busy = true) {rest : List MicroOp}
    (todo : s.todo = .windowWait :: rest) (level : intLevel s ≠ s.params.intWaitLevel) :
    step s = .next (afterIntSample s) := by
  have stays : { pollInt s with todo := s.todo } = afterIntSample s := rfl
  rw [step_of_busy busy quiet.arst, todo, runOps_windowWait_quiet rest quiet.inputs quiet.arst, if_neg level, ← todo,
    stays]

/-- Settles O39: the next step is one pass of the wait, whichever of the two commands waits. -/
theorem waitEndsAtTheLevel : Obligations.WaitEndsAtTheLevel := by
  intro s h l m ready busy pace
  exact ⟨fun todo => ⟨(burstBytes_write true h m).step_waiting ready busy pace todo,
      step_waiting_other ready.quiet busy todo⟩,
    fun todo => ⟨(burstBytes_read true h m).step_waiting ready busy pace todo,
      step_waiting_other ready.quiet busy todo⟩⟩

/-- A command stands in its window wait, with no VDP attached and nothing left to land (R7, R193). -/
structure WaitsAlone (s : State) : Prop where
  busy : s.busy = true
  waitInt : s.waitInt = true
  arst : s.arst = false
  inputs : s.inputs = []
  vdp : s.vdp = none
  todo : ∃ rest, s.todo = .windowWait :: rest

/-- WAIT_INT marks a command in its window wait; a state held in reset has it clear (R46, R300). -/
theorem MachineInv.waitsAlone {s : State} (h : MachineInv s) (waitInt : s.waitInt = true) (inputs : s.inputs = [])
    (vdp : s.vdp = none) : WaitsAlone s := by
  have busy : s.busy = true := Bool.eq_true_of_not_eq_false fun idle =>
    absurd ((h.position.waitInt_of_idle idle).symm.trans waitInt) Bool.false_ne_true
  have arst : s.arst = false := by
    refine Bool.eq_false_iff.mpr fun held => ?_
    have clear : s.waitInt = false := congrArg State.waitInt (h.held held)
    exact absurd (clear.symm.trans waitInt) Bool.false_ne_true
  obtain ⟨l, byte, todo, -⟩ := h.todo_of_busy busy
  exact ⟨busy, waitInt, arst, inputs, vdp, _, todo⟩

/-- After `k` samples of the other level, the last the script has (R127, R193). -/
def afterSamples (k : Nat) (s : State) : State :=
  { s with
    trace := List.replicate k (.sampI (!s.params.intWaitLevel)) ++ s.trace
    intScript := []
    draws := s.draws + k }

/-- Each step of a wait whose script has only the other level takes one sample, for as long as the script goes (R193,
R324). -/
theorem WaitsAlone.run {s : State} (h : WaitsAlone s) (k : Nat)
    (script : s.intScript = List.replicate k (!s.params.intWaitLevel)) : core.run k s = .next (afterSamples k s) := by
  induction k generalizing s with
  | zero => exact congrArg (fun script => Host.Outcome.next { s with intScript := script }) script
  | succ k ih =>
    obtain ⟨rest, todo⟩ := h.todo
    have level : intLevel s = !s.params.intWaitLevel := by rw [intLevel, h.vdp, script]; rfl
    have other : intLevel s ≠ s.params.intWaitLevel := by rw [level]; exact Bool.not_ne_self _
    have sample : afterIntSample s = { s with
        trace := .sampI (!s.params.intWaitLevel) :: s.trace
        intScript := List.replicate k (!s.params.intWaitLevel)
        draws := s.draws + 1 } := by
      rw [afterIntSample, bne_iff_ne.mpr other, level, h.vdp, script, h.waitInt]
      rfl
    have quiet : Quiet s := ⟨by rw [h.inputs]; rfl, h.arst⟩
    have waits : WaitsAlone (afterIntSample s) := by
      rw [sample]
      exact ⟨h.busy, h.waitInt, h.arst, h.inputs, h.vdp, rest, todo⟩
    have oneMore : afterSamples k (afterIntSample s) = afterSamples (k + 1) s := by
      rw [sample]
      simp [afterSamples, List.replicate_succ', Nat.add_assoc, Nat.add_comm 1]
    calc
      core.run (k + 1) s = core.run k (afterIntSample s) :=
        run_succ core (step_waiting_other quiet h.busy todo other) k
      _ = .next (afterSamples k (afterIntSample s)) := ih waits (congrArg State.intScript sample)
      _ = .next (afterSamples (k + 1) s) := congrArg _ oneMore

/-- Settles O40: a state of the invariant with WAIT_INT set stands in its wait, and each step is one more sample. -/
theorem windowWaitHasNoTimeout : Obligations.WindowWaitHasNoTimeout := by
  intro k s inv waitInt inputs vdp script
  have waits := inv.waitsAlone waitInt inputs vdp
  exact ⟨afterSamples k s, waits.run k script, rfl, waits.busy, waits.waitInt, rfl⟩

/-! ## The frames of a burst -/

theorem Seen.refl (s : State) : Seen s [] s := ⟨[], rfl, rfl, rfl⟩

/-- The frames of two runs, one after the other. -/
theorem Seen.trans {s u t : State} {fs gs : List Frame} (h : Seen s fs u) (h' : Seen u gs t) : Seen s (fs ++ gs) t := by
  obtain ⟨es, trace, walk, rfl⟩ := h
  obtain ⟨es', trace', walk', rfl⟩ := h'
  refine ⟨es ++ es', by rw [trace', trace]; simp, ?_, ?_⟩
  · rw [walk', walk, walkAfter_append]
  · rw [framesFrom_append, walk]

/-- Whether the adapter is ready is a matter of the bus and of what may interrupt. -/
theorem Ready.of_bus {s t : State} (h : Ready s) (bus : t.bus = s.bus) (inputs : t.inputs = s.inputs)
    (arst : t.arst = s.arst) : Ready t :=
  ⟨⟨inputs ▸ h.quiet.inputs, arst.trans h.quiet.arst⟩, (congrArg BusRegs.configured bus).trans h.configured,
    (congrArg BusRegs.portsInit bus).trans h.portsInit, h.pins.of_bus bus, h.idle.of_bus bus⟩

/-- The sample that finds the level is no frame (R132), and leaves the adapter ready. -/
theorem Ready.burstStart {s : State} (hr : Ready s) (paced : Bool) :
    Ready (burstStart paced s) ∧ Seen s [] (burstStart paced s) := by
  cases paced with
  | false => exact ⟨hr, .refl s⟩
  | true => exact ⟨hr.afterIntSample, [.sampI (intLevel s)], rfl, rfl, rfl⟩

/-- A status read from the idle bus is one framing read (R99, R230). -/
theorem Ready.seen_status {s : State} (hr : Ready s) : Seen s [⟨.read, true, anyByte s⟩] (afterStatus s) := by
  have high := modeOn_csw hr.pins hr.idle
  have asserted := modeOn_mode hr.pins
  have strobe := csrLow_csr hr.pins
  have kept := csrLow_csw hr.pins
  have mode := csrLow_mode hr.pins
  refine ⟨statusEvents s (anyByte s), rfl, ?walk, ?frames⟩
  case walk =>
    unfold statusEvents
    split <;> rfl
  case frames =>
    unfold statusEvents
    split <;>
      simp [framesFrom, Walk.frameAt, Walk.writeEdge, Walk.readStrobed, Walk.after, Walk.modeAsserted, State.walk,
        hr.idle.csw, high, asserted, strobe, kept, mode]

/-- A burst byte by byte: `next k` does byte `k`, which shows the frame `frame k`, and `after n` does the first `n`. -/
structure ByteByByte (next : Nat → State → State) (frame : Nat → State → Frame) (after : Nat → State → State) :
    Prop where
  zero : ∀ s, after 0 s = s
  succ : ∀ n s, after (n + 1) s = next n (after n s)
  ready : ∀ {u}, Ready u → ∀ k, Ready (next k u)
  seen : ∀ {u}, Ready u → ∀ k, Seen u [frame k u] (next k u)

/-- Byte `k` of a write burst is one data frame with the byte of HOSTMEM (R194). -/
theorem byteByByte_write (paced : Bool) (h m : BitVec 16) :
    ByteByByte (afterWriteByte paced h m) (fun k u => ⟨.write, false, u.hostmem.hostRead (byteAddress h m k)⟩)
      (afterWriteBytes paced h m) where
  zero _ := rfl
  succ _ _ := rfl
  ready hu _ := hu.of_bus rfl rfl rfl
  seen {u} hu k :=
    have frames := writeByte_frames hu u.dout paced k (byteAddress h m k) (u.hostmem.hostRead (byteAddress h m k))
    ⟨_, rfl, frames.2.symm, frames.1⟩

/-- Byte `k` of a read burst is one data frame with the byte sampled (R195). -/
theorem byteByByte_read (paced : Bool) (h m : BitVec 16) :
    ByteByByte (afterReadByte paced h m) (fun _ u => ⟨.read, false, dataByte u⟩) (afterReadBytes paced h m) where
  zero _ := rfl
  succ _ _ := rfl
  ready hu _ := hu.of_bus rfl rfl rfl
  seen {u} hu k :=
    have frames := readByte_frames hu u.dout paced k (byteAddress h m k) (dataByte u)
    ⟨_, rfl, frames.2.symm, frames.1⟩

section

variable {next : Nat → State → State} {frame : Nat → State → Frame} {after : Nat → State → State}
  (bytes : ByteByByte next frame after)

include bytes

/-- The first `n` bytes show their frames in order, and leave the adapter ready. -/
theorem ByteByByte.loop {s : State} (hr : Ready s) (n : Nat) :
    Ready (after n s) ∧ Seen s ((List.range n).map fun k => frame k (after k s)) (after n s) := by
  induction n with
  | zero =>
    rw [bytes.zero]
    exact ⟨hr, .refl s⟩
  | succ n ih =>
    obtain ⟨ready, seen⟩ := ih
    rw [bytes.succ, List.range_succ, List.map_append]
    exact ⟨bytes.ready ready n, seen.trans (bytes.seen ready n)⟩

/-- A burst shows the frames of its bytes, then one status frame (R194, R195, R199). -/
theorem ByteByByte.seen_burst {s : State} (hr : Ready s) (paced : Bool) (l : BitVec 16) :
    Seen s ((List.range (count s paced l).toNat).map
          (fun k => frame k (after k { s with p := paced, n := count s paced l })) ++
        [⟨.read, true, (afterBurst after paced l s).vdpstat⟩]) (afterBurst after paced l s) := by
  have start : Ready { s with p := paced, n := count s paced l } := hr.of_bus rfl rfl rfl
  obtain ⟨ready, seen⟩ := bytes.loop start (count s paced l).toNat
  exact (seen.trans ready.seen_status).still rfl rfl

/-- The same for a burst that begins with the sample that finds the level, if there is a wait (R193). -/
theorem ByteByByte.seenFrames {s : State} (hr : Ready s) (paced : Bool) (l : BitVec 16) :
    seenFrames s (afterBurst after paced l (burstStart paced s)) =
      (List.range (count s paced l).toNat).map
          (fun k => frame k (after k { burstStart paced s with p := paced, n := count s paced l })) ++
        [⟨.read, true, (afterBurst after paced l (burstStart paced s)).vdpstat⟩] := by
  obtain ⟨ready, seen⟩ := hr.burstStart paced
  obtain ⟨-, -, -, same⟩ := burstStart_fields paced s
  have burst := bytes.seen_burst ready paced l
  rw [same] at burst
  exact (seen.trans burst).seenFrames

end

/-- Settles O41: the data frames are those of the bytes in order, and a write burst leaves HOSTMEM as it was. -/
theorem bulkWriteReplaysThePattern : Obligations.BulkWriteReplaysThePattern := by
  intro s h l m paced o ready hl hm runs
  obtain ⟨sameMem, -, -, sameCount⟩ := burstStart_fields paced s
  have hostmem (n : Nat) (u : State) : (afterWriteBytes paced h m n u).hostmem = u.hostmem :=
    afterWriteBytes_keeps State.hostmem paced h m (fun _ _ => rfl) n u
  have result : (afterWriteBurst paced h l m (burstStart paced s)).result = count s paced l := sameCount l
  refine ⟨_, bulkWrite_of_burstRuns ready hl hm runs, result, (hostmem _ _).trans sameMem, ?frames⟩
  have frames := (byteByByte_write paced h m).seenFrames ready paced l
  simp only [hostmem, sameMem] at frames
  rw [result]
  exact frames

/-! ## The bytes a read burst leaves -/

/-- Of the places `0 .. n - 1` the last with the remainder `j` (R197). -/
theorem exists_last_index {j m n : Nat} (hj : j < min m n) : ∃ k < n, k % m = j ∧ n ≤ k + m := by
  obtain ⟨hjm, hjn⟩ := lt_min_iff.mp hj
  have split := Nat.div_add_mod (n - 1 - j) m
  have rest := Nat.mod_lt (n - 1 - j) (Nat.zero_lt_of_lt hjm)
  refine ⟨j + m * ((n - 1 - j) / m), by omega, ?_, by omega⟩
  rw [Nat.add_mul_mod_self_left, Nat.mod_eq_of_lt hjm]

/-- The byte of frame `k` stays at its place as long as none of the next bytes comes round to it (R197, R202). -/
theorem hostRead_afterReadBytes_last (paced : Bool) (h : BitVec 16) {m : BitVec 16} (hm : 1 ≤ m.toNat) (s : State)
    {k n : Nat} (lt : k < n) (near : n ≤ k + m.toNat) :
    (afterReadBytes paced h m n s).hostmem.hostRead (byteAddress h m k) = dataByte (afterReadBytes paced h m k s) := by
  induction n with
  | zero => exact absurd lt (Nat.not_lt_zero k)
  | succ n ih =>
    rw [afterReadBytes, afterReadByte]
    obtain rfl | before : k = n ∨ k < n := by omega
    · exact Memory.hostRead_hostWrite_same _ _ _
    · exact (Memory.hostRead_hostWrite_other _ _ (byteAddress_ne h hm before (by omega))).trans (ih before (by omega))

/-- A read burst writes only the places of its bytes (R195). -/
theorem hostRead_afterReadBytes_other (paced : Bool) (h m : BitVec 16) (s : State) {a : HostAddr} {n : Nat}
    (other : ∀ k < n, a ≠ byteAddress h m k) :
    (afterReadBytes paced h m n s).hostmem.hostRead a = s.hostmem.hostRead a := by
  induction n with
  | zero => rfl
  | succ n ih =>
    have byte : (afterReadBytes paced h m (n + 1) s).hostmem.hostRead a =
        (afterReadBytes paced h m n s).hostmem.hostRead a :=
      Memory.hostRead_hostWrite_other _ _ (other n n.lt_succ_self)
    exact byte.trans (ih fun k hk => other k (hk.trans n.lt_succ_self))

/-- Settles O42: the last frame of each place stands in HOSTMEM, and the places of the burst are all it writes. -/
theorem bulkReadCapturesTheLastFrames : Obligations.BulkReadCapturesTheLastFrames := by
  intro s h l m paced o ready hl hm runs
  obtain ⟨sameMem, -, -, sameCount⟩ := burstStart_fields paced s
  have result : (afterReadBurst paced h l m (burstStart paced s)).result = count s paced l := sameCount l
  have hostmem : (afterReadBurst paced h l m (burstStart paced s)).hostmem =
      (afterReadBytes paced h m (count s paced l).toNat
        { burstStart paced s with p := paced, n := count s paced l }).hostmem := by
    rw [← sameCount l]
    rfl
  refine ⟨_, bulkRead_of_burstRuns ready hl hm runs, result, ?_⟩
  rw [result, hostmem]
  refine ⟨fun j hj => ?last, fun a ha => ?others⟩
  case last =>
    obtain ⟨k, hk, rfl, near⟩ := exists_last_index hj
    refine ⟨k, hk, rfl, near, ?_⟩
    have frames : seenFrames s (afterReadBurst paced h l m (burstStart paced s)) = _ :=
      (byteByByte_read paced h m).seenFrames ready paced l
    have stored := hostRead_afterReadBytes_last paced h hm
      { burstStart paced s with p := paced, n := count s paced l } hk near
    rw [byteAddress] at stored
    rw [frames, stored, List.getElem?_append_left (by simpa using hk), List.getElem?_map, List.getElem?_range hk]
    rfl
  case others =>
    have place (k : Nat) (hk : k < (count s paced l).toNat) : a ≠ byteAddress h m k :=
      ha (k % m.toNat) (lt_min (Nat.mod_lt k hm) ((Nat.mod_le k m.toNat).trans_lt hk))
    rw [hostRead_afterReadBytes_other paced h m _ place, sameMem]

end Sys2Proof.Machine

/-! READ_STATUS: what it leaves behind, its one frame and its no-op (R106, R230-R232). -/

namespace Sys2Proof.Machine

open Sys2Proof.Expected

/-- The events of a status read from the idle bus are one framing read of the byte returned (R132, R230). -/
theorem Ready.framesFrom_statusEvents {s : State} (hr : Ready s) :
    framesFrom s.walk (statusEvents s (anyByte s)) = [⟨.read, true, anyByte s⟩] := by
  have events : newEvents s (afterStatus s) = statusEvents s (anyByte s) := newEvents_eq _ rfl
  rw [← events]
  exact hr.seen_status.seenFrames

/-- Settles O32: READ_STATUS is the status read, whose byte is the one kept in VDPSTAT; G_ready is its guard,
and a false guard makes it the no-op. -/
theorem readStatusReturnsTheByte : Obligations.ReadStatusReturnsTheByte := by
  intro s
  refine ⟨fun ready => ?reads, fun quiet notReady => ?noop⟩
  case reads => exact ⟨exec_readStatus ready, ready.framesFrom_statusEvents⟩
  case noop => exact failedGuardIsASilentNoop .readStatus s quiet notReady

end Sys2Proof.Machine

/-! Setters: one bit of the register-1 mirror and register 1, or one nibble of the colour mirror and register 7
(R240, R242-R246). -/

namespace Sys2Proof.Machine

open Sys2Proof.Expected

/-! ## One bit of the register-1 mirror -/

/-- A setter of bit `k` of the register-1 mirror, from the idle bus: the bit has the operand, the other bits are kept,
and register 1 is sent with the current mode's bits (R240). -/
theorem r1Setter_writesBit {s : State} (hr : Ready s) (k : Fin 8) (b : Bool) :
    ∃ x : Byte,
      command (gReady s) (r1SetterOps s (withBit s.r1mir k.val b)) .zero s =
          .next (done 0 (afterPair { s with r1mir := x } (registerPair 1 (setterByte s x)))) ∧
        x.getLsbD k.val = b ∧ ∀ j < 8, j ≠ k.val → x.getLsbD j = s.r1mir.getLsbD j :=
  ⟨_, command_r1Setter hr _, getLsbD_withBit_same _ _ k.isLt, fun _ hj other => getLsbD_withBit_other _ _ hj other⟩

/-- Settles O29: SET_IRQ_ENABLE is the setter of the irq-enable bit, and G_ready is its guard. -/
theorem setIrqEnableWritesItsBit : Obligations.SetIrqEnableWritesItsBit := by
  refine fun s b => ⟨fun ready => ?sends, fun quiet notReady => ?noop⟩
  case sends => exact r1Setter_writesBit ready s.params.r1IeBit b
  case noop => exact failedGuardIsASilentNoop (.setIrqEnable b) s quiet notReady

/-- Settles O30: SET_SPRITE_SIZE and SET_SPRITE_MAG are the setters of their bits, and G_ready is their guard. -/
theorem spriteSettersWriteTheirBits : Obligations.SpriteSettersWriteTheirBits := by
  refine fun s b => ⟨fun ready => ⟨?size, ?mag⟩, fun quiet notReady => ⟨?sizeNoop, ?magNoop⟩⟩
  case size => exact r1Setter_writesBit ready s.params.r1SizeBit b
  case mag => exact r1Setter_writesBit ready s.params.r1MagBit b
  case sizeNoop => exact failedGuardIsASilentNoop (.setSpriteSize b) s quiet notReady
  case magNoop => exact failedGuardIsASilentNoop (.setSpriteMag b) s quiet notReady

/-! ## One nibble of the colour mirror -/

/-- The mask of the low nibble, moved to bit `shift` (R245). -/
theorem getLsbD_nibbleMask {shift j : Nat} (hj : j < 8) :
    (0x0F#8 <<< shift).getLsbD j = decide (shift ≤ j ∧ j < shift + 4) := by
  have low (i : Nat) : (0x0F#8).getLsbD i = decide (i < 4) := by
    rw [show 0x0F#8 = (BitVec.allOnes 4).setWidth 8 from rfl, BitVec.getLsbD_setWidth, BitVec.getLsbD_allOnes,
      ← Bool.decide_and, decide_eq_decide]
    omega
  rw [BitVec.getLsbD_shiftLeft, low, ← decide_not, ← Bool.decide_and, ← Bool.decide_and, decide_eq_decide]
  omega

/-- Each bit of a byte whose nibble at `shift` is written (R245, R246). -/
theorem getLsbD_withNibble (x : Byte) {shift j : Nat} (c : BitVec 4) (hj : j < 8) :
    (withNibble x shift c).getLsbD j =
      if shift ≤ j ∧ j < shift + 4 then c.getLsbD (j - shift) else x.getLsbD j := by
  rw [withNibble, BitVec.getLsbD_or, BitVec.getLsbD_and, BitVec.getLsbD_not, getLsbD_nibbleMask hj,
    BitVec.getLsbD_shiftLeft, BitVec.getLsbD_setWidth]
  split
  next inside =>
    have place : j - shift < 8 := by omega
    simp [inside, hj, place, Nat.not_lt.mpr inside.1]
  next outside =>
    have noOperand : j < shift ∨ c.getLsbD (j - shift) = false :=
      (Nat.lt_or_ge j shift).imp_right fun above => BitVec.getLsbD_of_ge _ _ (by omega)
    rcases noOperand with below | off
    · simp [outside, hj, below]
    · simp [outside, hj, off]

/-- The nibble written reads back, at every place where it fits the byte. -/
theorem extractLsb'_withNibble (x : Byte) {shift : Nat} (c : BitVec 4) (fits : shift ≤ 4) :
    (withNibble x shift c).extractLsb' shift 4 = c := by
  refine BitVec.eq_of_getLsbD_eq fun i hi => ?_
  rw [BitVec.getLsbD_extractLsb', getLsbD_withNibble x c (by omega), if_pos (by omega), Nat.add_sub_cancel_left,
    decide_eq_true hi, Bool.true_and]

theorem getLsbD_withNibble_outside (x : Byte) {shift j : Nat} (c : BitVec 4) (hj : j < 8)
    (outside : j < shift ∨ shift + 4 ≤ j) : (withNibble x shift c).getLsbD j = x.getLsbD j := by
  rw [getLsbD_withNibble x c hj, if_neg (by omega)]

/-- A setter that gives the colour mirror the value `y` and sends register 7, from the idle bus (R245, R246). -/
theorem command_colourSetter {s : State} (hr : Ready s) (y : Byte) :
    command (gReady s) (colourSetterOps s y) .zero s =
      .next (done 0 (afterPair { s with colmir := y } (y, 0x87#8))) := by
  have pair : performAll (colourSetterOps s y) { s with busy := true } =
      afterPair { s with busy := true, colmir := y } (y, 0x87#8) :=
    performAll_frame2 (s := { s with busy := true, colmir := y }) hr.configured (hr.pins.of_bus rfl)
      (hr.idle.of_bus rfl) _ _
  have noWait : .windowWait ∉ colourSetterOps s y := by
    simp [colourSetterOps, programRegister, windowWait_not_mem_frame2]
  rw [hr.gReady, command_true_quiet hr.quiet .zero noWait, pair]
  rfl

/-- A setter of the colour nibble at `shift`, from the idle bus: the nibble is the operand, the other bits are kept, and
register 7 is sent (R245, R246). -/
theorem colourSetter_writesNibble {s : State} (hr : Ready s) (shift : Fin 5) (c : BitVec 4) :
    ∃ y : Byte,
      command (gReady s) (colourSetterOps s (withNibble s.colmir shift.val c)) .zero s =
          .next (done 0 (afterPair { s with colmir := y } (y, 0x87#8))) ∧
        y.extractLsb' shift.val 4 = c ∧
        ∀ j < 8, (j < shift.val ∨ shift.val + 4 ≤ j) → y.getLsbD j = s.colmir.getLsbD j :=
  ⟨_, command_colourSetter hr _, extractLsb'_withNibble _ c (Nat.le_of_lt_succ shift.isLt),
    fun _ hj outside => getLsbD_withNibble_outside _ c hj outside⟩

/-- Settles O31: SET_TEXT_COLOR and SET_BG_COLOR are the setters of their nibbles, and G_ready is their guard. -/
theorem colourSettersWriteTheirNibbles : Obligations.ColourSettersWriteTheirNibbles := by
  refine fun s c => ⟨fun ready => ⟨?text, ?background⟩, fun quiet notReady => ⟨?textNoop, ?backgroundNoop⟩⟩
  case text => exact colourSetter_writesNibble ready s.params.colorTextShift c
  case background => exact colourSetter_writesNibble ready s.params.colorBgShift c
  case textNoop => exact failedGuardIsASilentNoop (.setTextColor c) s quiet notReady
  case backgroundNoop => exact failedGuardIsASilentNoop (.setBgColor c) s quiet notReady

end Sys2Proof.Machine

/-! Housekeeping: NOP and CLEAR_FLAGS, the commands that need no configured pins (R270, R272). -/

namespace Sys2Proof.Machine

open Sys2Proof.Expected

/-- Settles O12: NOP has no guard and no steps, so `finish(0)` is all it does. -/
theorem nopFinishesInEveryState : Obligations.NopFinishesInEveryState :=
  fun _ quiet => command_true_quiet quiet .zero (by simp)

/-- CLEAR_FLAGS that nothing interrupts: its two assignments, then `finish(0)` (R272). -/
theorem exec_clearFlags {s : State} (quiet : Quiet s) :
    exec .clearFlags s = .next (done 0 { s with ovr := false, ill := false }) :=
  command_true_quiet quiet (ops := [.clearOvr, .clearIll]) .zero (by simp)

/-- Settles O14: the command runs by `exec_clearFlags`; while BUSY = 1 its word is dropped as every word is (R100). -/
theorem clearFlagsClearsTheStickyFlags : Obligations.ClearFlagsClearsTheStickyFlags := by
  obtain ⟨dropped, -⟩ := commandWhileBusyIsDropped
  exact ⟨fun _ => exec_clearFlags, fun s => dropped s (encode .clearFlags)⟩

end Sys2Proof.Machine

/-! Exceptions: nothing ends in a fault or a refusal (R280). -/

namespace Sys2Proof.Machine

/-- Settles O8: a step of the machine is a turn, and each turn answers (`step_answers`); a command is its list of steps
(`exec_eq_execute`), and running a list of steps leaves a state. -/
theorem nothingEndsInAFault : Obligations.NothingEndsInAFault := by
  refine ⟨?steps, ?commands⟩
  case steps => exact step_answers
  case commands =>
    intro i s
    exact ⟨runOps (stepsOf s i) { s with busy := true }, exec_eq_execute i s⟩

end Sys2Proof.Machine

/-! The host's continuation of a partial transfer (R312, R313), and what ARST does to a written command (R300). -/

namespace Sys2Proof.Machine

open Sys2Proof.Expected

/-! ## The host addresses of a pattern from byte `n` on -/

/-- A pattern of one byte stands at one address (R202). -/
theorem byteAddress_one (h : BitVec 16) (k : Nat) : byteAddress h 1#16 k = h := by
  rw [byteAddress, show (1#16).toNat = 1 from rfl, Nat.mod_one, Nat.add_zero, BitVec.ofNat_toNat, BitVec.setWidth_eq]

/-- Inside the first repetition the pattern has not wrapped: its bytes stand one after another (R202). -/
theorem byteAddress_of_lt (h : BitVec 16) {m : BitVec 16} {k : Nat} (hk : k < m.toNat) :
    byteAddress h m k = h + BitVec.ofNat 16 k := by
  rw [byteAddress, Nat.mod_eq_of_lt hk, BitVec.ofNat_add, BitVec.ofNat_toNat, BitVec.setWidth_eq]

/-- After whole repetitions the pattern starts anew (R202). -/
theorem byteAddress_add_of_dvd (h : BitVec 16) {m : BitVec 16} {n : Nat} (whole : m.toNat ∣ n) (k : Nat) :
    byteAddress h m (n + k) = byteAddress h m k := by
  obtain ⟨q, rfl⟩ := whole
  rw [byteAddress, Nat.mul_add_mod, byteAddress]

/-! ## The continuation function -/

/-- What every continuation of `t` after `n` bytes has in common: the VRAM start and the length (R312). -/
def Transfer.rest (t : Transfer) (n h m : BitVec 16) : Transfer :=
  { a := t.a + n.setWidth 14, h := h, l := t.l - n, m := m }

/-- The cases of R313, tried in their order. -/
theorem Transfer.continue?_eq (t : Transfer) (n : BitVec 16) :
    t.continue? n =
      if t.m = 1 then some (t.rest n t.h 1)
      else if t.l ≤ t.m then some (t.rest n (t.h + n) (t.m - n))
      else if n % t.m = 0 then some (t.rest n t.h t.m)
      else none := rfl

/-- An answer is one of the three of R313, in its case. -/
theorem Transfer.continue?_cases {t y : Transfer} {n : BitVec 16} (answer : t.continue? n = some y) :
    (t.m = 1 ∧ y = t.rest n t.h 1) ∨
    (t.l.toNat ≤ t.m.toNat ∧ y = t.rest n (t.h + n) (t.m - n)) ∨
    (t.m.toNat ∣ n.toNat ∧ y = t.rest n t.h t.m) := by
  rw [continue?_eq] at answer
  split at answer
  next one => exact .inl ⟨one, (Option.some.inj answer).symm⟩
  split at answer
  next le => exact .inr (.inl ⟨le, (Option.some.inj answer).symm⟩)
  split at answer
  next whole =>
    have zero : n.toNat % t.m.toNat = 0 := by rw [← BitVec.toNat_umod, whole]; rfl
    exact .inr (.inr ⟨Nat.dvd_of_mod_eq_zero zero, (Option.some.inj answer).symm⟩)
  next => exact nomatch answer

section

variable {t : Transfer} {n : BitVec 16}

theorem Transfer.continue?_of_one (one : t.m = 1) : t.continue? n = some (t.rest n t.h 1) := by
  rw [continue?_eq, if_pos one]

/-- With nothing moved the continuation is the transfer itself, in whichever case of R313 it stands. -/
theorem Transfer.continue?_zero : t.continue? 0#16 = some (t.rest 0#16 t.h t.m) := by
  rw [continue?_eq, BitVec.add_zero, BitVec.sub_zero, BitVec.zero_umod, if_pos (show 0#16 = 0 from rfl), ite_self]
  split
  next one => rw [one]
  next => rfl

/-- The case M ≥ L, which meets the case M = 1 only where nothing has moved. -/
theorem Transfer.continue?_of_le (short : n.toNat < t.l.toNat) (le : t.l.toNat ≤ t.m.toNat) :
    t.continue? n = some (t.rest n (t.h + n) (t.m - n)) := by
  by_cases one : t.m = 1
  case pos =>
    have zero : n = 0#16 := BitVec.eq_of_toNat_eq (by rw [one] at le; exact Nat.lt_one_iff.mp (short.trans_le le))
    rw [zero, continue?_zero, BitVec.add_zero, BitVec.sub_zero]
  case neg => rw [continue?_eq, if_neg one, if_pos (BitVec.le_def.mpr le)]

/-- The case N mod M = 0, which meets the case M ≥ L only where nothing has moved. -/
theorem Transfer.continue?_of_whole (short : n.toNat < t.l.toNat) (whole : n.toNat % t.m.toNat = 0) :
    t.continue? n = some (t.rest n t.h t.m) := by
  by_cases one : t.m = 1
  case pos => rw [continue?_of_one one, one]
  case neg =>
    by_cases le : t.l.toNat ≤ t.m.toNat
    case pos =>
      have zero : n = 0#16 := BitVec.eq_of_toNat_eq (by rwa [Nat.mod_eq_of_lt (short.trans_le le)] at whole)
      rw [zero, continue?_zero]
    case neg =>
      have whole : n % t.m = 0 := BitVec.eq_of_toNat_eq (by rw [BitVec.toNat_umod, whole]; rfl)
      rw [continue?_eq, if_neg one, if_neg (mt BitVec.le_def.mp le), if_pos whole]

/-- Outside R313's cases there is none (log 13). -/
theorem Transfer.continue?_eq_none (one : t.m ≠ 1) (long : t.m.toNat < t.l.toNat) (inside : n.toNat % t.m.toNat ≠ 0) :
    t.continue? n = none := by
  have notWhole : n % t.m ≠ 0 := fun zero => inside (by rw [← BitVec.toNat_umod, zero]; rfl)
  rw [continue?_eq, if_neg one, if_neg fun le => long.not_ge (BitVec.le_def.mp le), if_neg notWhole]

/-- The continuation's arguments are legal, and its bytes stand where the rest of the pattern stands (R202, R313): in a
pattern of one byte they are all the same, in the first repetition they follow one another, and after whole repetitions the
pattern starts anew. -/
theorem Transfer.continue?_carries {y : Transfer} (legal : 1 ≤ t.m.toNat) (short : n.toNat < t.l.toNat)
    (answer : t.continue? n = some y) :
    1 ≤ y.m.toNat ∧ ∀ k, n.toNat + k < t.l.toNat → byteAddress y.h y.m k = byteAddress t.h t.m (n.toNat + k) := by
  rcases continue?_cases answer with ⟨one, rfl⟩ | ⟨le, rfl⟩ | ⟨whole, rfl⟩
  case inl =>
    refine ⟨le_rfl, fun k _ => ?_⟩
    rw [one]
    exact (byteAddress_one _ _).trans (byteAddress_one _ _).symm
  case inr.inl =>
    have modulus : (t.m - n).toNat = t.m.toNat - n.toNat := BitVec.toNat_sub_of_le (BitVec.le_def.mpr (by omega))
    refine ⟨by show 1 ≤ (t.m - n).toNat; omega, fun k hk => ?_⟩
    calc byteAddress (t.h + n) (t.m - n) k
      _ = t.h + n + BitVec.ofNat 16 k := byteAddress_of_lt _ (by omega)
      _ = t.h + BitVec.ofNat 16 (n.toNat + k) := by
        rw [BitVec.ofNat_add, BitVec.ofNat_toNat, BitVec.setWidth_eq, BitVec.add_assoc]
      _ = byteAddress t.h t.m (n.toNat + k) := (byteAddress_of_lt _ (by omega)).symm
  case inr.inr => exact ⟨legal, fun k _ => (byteAddress_add_of_dvd t.h whole k).symm⟩

/-- The VRAM start and the length of a continuation, as numbers (R312). -/
theorem Transfer.continue?_start_length {y : Transfer} (short : n.toNat < t.l.toNat) (answer : t.continue? n = some y) :
    y.a.toNat = (t.a.toNat + n.toNat) % 2 ^ 14 ∧ y.l.toNat = t.l.toNat - n.toNat := by
  obtain ⟨h, m, rfl⟩ : ∃ h m, y = t.rest n h m := by
    rcases continue?_cases answer with ⟨-, rfl⟩ | ⟨-, rfl⟩ | ⟨-, rfl⟩ <;> exact ⟨_, _, rfl⟩
  refine ⟨?start, BitVec.toNat_sub_of_le (BitVec.le_def.mpr short.le)⟩
  show (t.a + n.setWidth 14).toNat = _
  rw [BitVec.toNat_add, BitVec.toNat_setWidth, Nat.add_mod_mod]

end

/-- Settles O44: the three cases agree where they meet, and each carries the pattern on. -/
theorem continuationCarriesThePattern : Obligations.ContinuationCarriesThePattern := by
  intro x n legal short
  refine ⟨fun one => ⟨_, Transfer.continue?_of_one one⟩, fun le => ⟨_, Transfer.continue?_of_le short le⟩,
    fun whole => ⟨_, Transfer.continue?_of_whole short whole⟩, Transfer.continue?_eq_none, fun y answer => ?_⟩
  obtain ⟨start, length⟩ := Transfer.continue?_start_length short answer
  obtain ⟨modulus, carries⟩ := Transfer.continue?_carries legal short answer
  refine ⟨start, length, modulus, fun k hk => ?_⟩
  have inRest : n.toNat + k < x.l.toNat := by omega
  have fits : n.toNat + k < 65536 := inRest.trans x.l.isLt
  rw [hostAddress_eq y.h y.m k (by omega), hostAddress_eq x.h x.m _ fits]
  exact carries k inRest

/-! ## ARST -/

/-- While ARST is asserted nothing runs: the host's next operation lands, whatever it is (R300). -/
theorem step_of_held {s : State} (held : s.arst = true) {i : Input} {l : List Input} (inputs : s.inputs = i :: l) :
    step s = .next (landInput i { s with inputs := l }) := by
  have lands : turn s = .idle (landInput i { s with inputs := l }) := by
    cases i <;> simp [turn, held, inputs, landInput]
  rw [step, lands]

/-- Settles O53: a word that lands under ARST is dropped without OVR, and the invariant holds the adapter at its reset
values until it is released. -/
theorem heldInResetNoCommandIsAccepted : Obligations.HeldInResetNoCommandIsAccepted := by
  refine fun s l held => ⟨fun w word => ?discarded, step_of_held held, fun inv => ?idle⟩
  case discarded =>
    have dropped : landInput (.command w) { s with inputs := l } = { s with inputs := l } := by
      simp [landInput, dropCommand, held]
    rw [step_of_held held word, dropped]
  case idle =>
    have reset := inv.held held
    exact ⟨congrArg State.busy reset, congrArg State.ovr reset⟩

end Sys2Proof.Machine
